-- ==== Sys2Proof/Word.lean ====
section
/-! DEFINITION. The words of the links and of the store (spec/00_scope.md, Conventions): a word is 16 bits, a byte 8 bits;
keys and cipher blocks are 16 bytes, tags and identities 8 bytes, each with its first byte most significant. -/

namespace Sys2Proof

/-- A byte of a frame, an envelope, a record or a cell. -/
abbrev Byte := BitVec 8

/-- A link word: 16 bits, the first byte of a pair in the upper half (Conventions). -/
abbrev Word := BitVec 16

/-- A cipher block of 16 bytes, first byte most significant (R144). -/
abbrev Block := BitVec 128

/-- A 16-byte key, first byte most significant (R144). -/
abbrev Key := BitVec 128

/-- The 8-byte meter identity (R161), first byte most significant. -/
abbrev Ident := BitVec 64

/-- An 8-byte tag (R144), first byte most significant. -/
abbrev Tag := BitVec 64

/-- A reading of one of the timebase's two 32-bit counts (R25). -/
abbrev Count := BitVec 32

end Sys2Proof
end

