-- ==== Sys2Proof/Syntax.lean ====
section
/-! DEFINITION. The commands of the part: one constructor for each row of spec/opcode_table.json.

The twenty-one commands of the code table (R185) carry the port they arrive on and the body words of their frame, so that every
body the link can carry, well-formed or not, is a command. The other rows are the events on the part's lines, the passing of
time, and the ends of the store's and the cipher core's work. -/

namespace Sys2Proof

/-- The two ports: the metrology port MP and the network port NP. -/
inductive Port where
  | mp
  | np
deriving DecidableEq, Repr

/-- The other port. -/
def Port.other : Port → Port
  | .mp => .np
  | .np => .mp

/-- One constructor per row of spec/opcode_table.json. `body` is the frame's body, 0 to 38 words (R176). `now` is the reading of
the timebase millisecond count (R25) at which a timed event is judged. -/
inductive Instr where
  /-- NOP (R177). -/
  | nop (p : Port) (body : List Word)
  /-- STATUS_READ (R181). -/
  | statusRead (p : Port) (body : List Word)
  /-- SET_MASK (R182). -/
  | setMask (p : Port) (body : List Word)
  /-- SLOT_INFO (R23). -/
  | slotInfo (p : Port) (body : List Word)
  /-- STORE_INFO (R73). -/
  | storeInfo (p : Port) (body : List Word)
  /-- QUICK_TAG (R149). -/
  | quickTag (p : Port) (body : List Word)
  /-- QUICK_VERIFY (R150). -/
  | quickVerify (p : Port) (body : List Word)
  /-- CHAIN_OPEN (R152). -/
  | chainOpen (p : Port) (body : List Word)
  /-- CHAIN_DATA (R154). -/
  | chainData (p : Port) (body : List Word)
  /-- CHAIN_CLOSE (R155). -/
  | chainClose (p : Port) (body : List Word)
  /-- CHAIN_DROP (R156). -/
  | chainDrop (p : Port) (body : List Word)
  /-- ENV_OPEN (R109). -/
  | envOpen (p : Port) (body : List Word)
  /-- ENV_DATA (R110). -/
  | envData (p : Port) (body : List Word)
  /-- ENV_CLOSE (R113). -/
  | envClose (p : Port) (body : List Word)
  /-- ENV_DROP (R112). -/
  | envDrop (p : Port) (body : List Word)
  /-- ACTIVATE (R130). -/
  | activate (p : Port) (body : List Word)
  /-- ADOPT (R134). -/
  | adopt (p : Port) (body : List Word)
  /-- SET_IDENTITY (R163). -/
  | setIdentity (p : Port) (body : List Word)
  /-- LOAD_PLAIN (R164). -/
  | loadPlain (p : Port) (body : List Word)
  /-- UNLOAD (R166). -/
  | unload (p : Port) (body : List Word)
  /-- SEAL (R167). -/
  | seal (p : Port) (body : List Word)
  /-- SELECT_ASSERTED (R173): the port's select line is asserted. -/
  | selectAsserted (p : Port)
  /-- TRANSFER_JUDGED (R173): the port's select line is released after the complete words `words` were clocked in. -/
  | transferJudged (p : Port) (words : List Word)
  /-- PORT_RESTART (R179): a transfer of exactly the one word FFFFh. -/
  | portRestart (p : Port)
  /-- POWER_ON_RESET (R90): the supply enters (`true`) or leaves (`false`) its operating range. -/
  | powerOnReset (inRange : Bool)
  /-- PIN_RESET (R90): RSTN is driven low (`false`) or released high (`true`). -/
  | pinReset (high : Bool)
  /-- START_UP (R91): the replay. -/
  | startUp
  /-- START_UP_TAMPER_SAMPLE (R104): TAMP is sampled; `stays` says whether an active line stays active through the debounce. -/
  | startUpTamperSample (stays : Bool)
  /-- LEAVE_STARTING (R107). -/
  | leaveStarting
  /-- PFW_ASSERTED (R85). -/
  | pfwAsserted
  /-- PFW_RELEASED (R88). -/
  | pfwReleased
  /-- TAMP_LINE_CHANGE (R169): the TAMP line now reads active (`true`) or inactive (`false`). -/
  | tampLineChange (active : Bool)
  /-- TAMPER_EVENT (R169), judged at the millisecond reading `now`. -/
  | tamperEvent (now : Count)
  /-- COVER_CLOSED (R169), judged at the millisecond reading `now`. -/
  | coverClosed (now : Count)
  /-- GRACE_COUNTDOWN_TICK (R10): one step of the timebase second count. -/
  | graceCountdownTick
  /-- GRACE_EXPIRY (R138) of one slot. -/
  | graceExpiry (slot : Fin 16)
  /-- CHAIN_INACTIVITY (R157) of one port's chain, judged at the millisecond reading `now`. -/
  | chainInactivity (p : Port) (now : Count)
  /-- ENV_FILL_TIMEOUT (R111), judged at the millisecond reading `now`. -/
  | envFillTimeout (now : Count)
  /-- SEAL_WINDOW_EXPIRY (R167), judged at the millisecond reading `now`. -/
  | sealWindowExpiry (now : Count)
  /-- PE_TAKE_JOB (R78). -/
  | peTakeJob
  /-- RECORD_PROGRAM_DONE (R59): the record program in flight verified (`true`) or used all its pulses (`false`). -/
  | recordProgramDone (ok : Bool)
  /-- CARRY_FORWARD_DONE (R62): the carried copy verified or failed. -/
  | carryForwardDone (ok : Bool)
  /-- HEADER_PROGRAM_DONE (R61, R63): the outcome of the wear stamp's and of the sequence stamp's program, as far as the job has them. -/
  | headerProgramDone (wearOk seqOk : Bool)
  /-- PAGE_ERASE_DONE (R63): the page erase succeeded or failed. -/
  | pageEraseDone (ok : Bool)
  /-- CELL_PROGRAM_DONE (R51): the cell program verified or failed. -/
  | cellProgramDone (ok : Bool)
  /-- CELL_ERASE_DONE (R52): the cell erase succeeded or failed. -/
  | cellEraseDone (ok : Bool)
  /-- TE_TAKE_JOB (R147). -/
  | teTakeJob
  /-- TE_JOB_DONE (R148). -/
  | teJobDone
deriving DecidableEq, Repr

end Sys2Proof
end

