-- ==== Sys2Proof/Decode.lean ====
section
/-! DEFINITION. The commands that the table's bits spell. No row of spec/opcode_table.json gives bits (every row's "fields" is
empty and none has "fixed"; spec/98_reader.md counts 0 rows with either), so no word spells a command by the table's bits. The
frames that carry commands on the links (R176, R185) are decoded by `Machine.decodeFrame`. -/

namespace Sys2Proof

/-- The command a word spells by the table's bits: no row gives any, so none. -/
def decodeTableWord (_nbits _w : Nat) : Option Instr := none

end Sys2Proof
end

