-- ==== Sys2Proof/Config.lean ====
section
/-! DEFINITION. The free values: what spec/ leaves open. Each is an opaque constant without a body, so nothing can be proved of its
value. `draw` is the model's count of free values taken so far (`Part.draws`). -/

namespace Sys2Proof

/-- The item byte that stands for "window open" in the reply to a first SEAL (R167): R186 gives no code for it. Log entry 12. -/
opaque Config.windowOpenByte : BitVec 8

/-- Whether the engine takes a job before the wanted reservations are placed when PFW is released: R88 allows both orders. Log entry 31. -/
opaque Config.jobFirst (draw : Nat) : Bool

/-- The S_min in the CEIL record of a RENEW whose slot has none in its projected state (R123): 16 times 2 to this power. Log entry 25. -/
opaque Config.openSmin (draw : Nat) : Fin 9

/-- What a position of a page reads as after an erase of the page was torn or failed (R64, R81): 0 erased, 1 broken, 2 as before.
Log entry 13. -/
opaque Config.tornErase (draw position : Nat) : Fin 3

/-- Whether a cell reads erased after a program of it failed (R49 "either erased or RELEASED"). Log entry 14. -/
opaque Config.failedProgramErased (draw : Nat) : Bool

/-- Whether a header job of both stamps that a reset tore had finished its wear stamp (R89). Log entry 15. -/
opaque Config.tornWearDone (draw : Nat) : Bool

end Sys2Proof
end

