-- ==== Sys2Proof/Machine/Bits.lean ====
section
/-! DEFINITION. Byte order and the one CRC (R184): numbers most significant byte first, byte pairs in words with the first byte in
the upper half (Conventions). -/

namespace Sys2Proof.Machine

/-- The `k` bytes of `n`, most significant first. -/
def toBytes : Nat → Nat → List Byte
  | 0, _ => []
  | k + 1, n => BitVec.ofNat 8 (n / 256 ^ k) :: toBytes k n

/-- The number whose bytes are given, most significant first. -/
def ofBytes (b : List Byte) : Nat := b.foldl (fun a x => a * 256 + x.toNat) 0

/-- The word with `hi` in its upper and `lo` in its lower half. -/
def pair (hi lo : Byte) : Word := hi ++ lo

/-- The upper byte of a word. -/
def hiByte (w : Word) : Byte := w.extractLsb' 8 8

/-- The lower byte of a word. -/
def loByte (w : Word) : Byte := w.extractLsb' 0 8

/-- The bytes carried by words. -/
def wordBytes : List Word → List Byte
  | [] => []
  | w :: ws => hiByte w :: loByte w :: wordBytes ws

/-- Bytes paired two to a word; an odd last byte takes an upper half, the lower byte zero (R186). -/
def packBytes : List Byte → List Word
  | [] => []
  | [b] => [pair b 0]
  | b :: c :: rest => pair b c :: packBytes rest

/-- The `k` words of `n`, most significant first. -/
def toWords : Nat → Nat → List Word
  | 0, _ => []
  | k + 1, n => BitVec.ofNat 16 (n / 65536 ^ k) :: toWords k n

/-- The number whose words are given, most significant first. -/
def ofWords (w : List Word) : Nat := w.foldl (fun a x => a * 65536 + x.toNat) 0

/-- One bit of the CRC with generator x¹⁶ + x¹² + x⁵ + 1 (R184). -/
def crcShift (c : Word) : Word := if c.msb then (c <<< 1) ^^^ 0x1021 else c <<< 1

/-- One byte of the CRC, most significant bit first (R184). -/
def crcByte (c : Word) (b : Byte) : Word :=
  crcShift (crcShift (crcShift (crcShift (crcShift (crcShift (crcShift (crcShift (c ^^^ pair b 0))))))))

/-- The CRC of bytes from an initial value (R184). -/
def crc (init : Word) (b : List Byte) : Word := b.foldl crcByte init

/-- The two bytes of a word, upper byte first. -/
def wordPair (w : Word) : List Byte := [hiByte w, loByte w]

/-- Whether every byte reads FFh: an erased item (R188). -/
def readsErased (b : List Byte) : Bool := b.all (· == 0xFF)

/-- The bytes a block, key or other `w`-bit value holds, most significant first. -/
def bytesOf {w : Nat} (k : Nat) (x : BitVec w) : List Byte := toBytes k x.toNat

/-- The milliseconds from `a` to `b`, modulo 2³² (R25). -/
def elapsed (a b : Count) : Nat := (b - a).toNat

end Sys2Proof.Machine
end

