-- ==== Sys2Proof/Machine/State.lean ====
section
/-! DEFINITION. The state of the KS40: every register, list, buffer, counter, mode and line that spec/ gives the part, the contents of
its non-volatile store, and the queue of commands that wait. Plain data throughout. -/

namespace Sys2Proof.Machine

/-! ### Names with codes (R185) -/

/-- The class of a slot (R2). -/
inductive SlotClass where
  | transport | shared | metrology | network
deriving DecidableEq, Repr

/-- The seven slot states (R12, R13). -/
inductive SlotState where
  | unused | empty | ready | staged | switching | switchingStaged | zeroizing
deriving DecidableEq, Repr

/-- What a port's view names (R8). -/
inductive View where
  | current | outgoing
deriving DecidableEq, Repr

/-- The lifecycle (R161). -/
inductive Lifecycle where
  | blank | provisioned | sealed
deriving DecidableEq, Repr

/-- The store mode (R69). -/
inductive StoreMode where
  | normal | degraded | failed
deriving DecidableEq, Repr

/-- The role of a journal page (R54). -/
inductive PageRole where
  | spare | reserve | head | closed | retiring | bad
deriving DecidableEq, Repr

/-- The cause a RESET event reports (R90). -/
inductive Cause where
  | power | pin
deriving DecidableEq, Repr

/-- The mode of a chain (R151). -/
inductive ChainMode where
  | tag | verify
deriving DecidableEq, Repr

/-- The commands of the code table (R185). -/
inductive Cmd where
  | nop | statusRead | setMask | slotInfo | storeInfo
  | quickTag | quickVerify | chainOpen | chainData | chainClose | chainDrop
  | envOpen | envData | envClose | envDrop | activate | adopt
  | setIdentity | loadPlain | unload | seal
deriving DecidableEq, Repr

/-- Result codes, refusals and verdicts (R185; 10.5; chapter 6). -/
inductive Code where
  | ok | match_ | mismatch
  | badArg | rights | lifecycle | slotState | noGen | exhausted | windowClosed | chainNone | chainOpen
  | chainLength | envBusy | envNone | store | noCell | powerLow | sealPrecondition
  | committed | envForm | envCheck | envNotOurs | envLifecycle | envSlot | envTransport | envIntegrity
  | envStale | envPending | envSwitching | envStore | envNoCell | envPower | envNoPending | envTamper
deriving DecidableEq, Repr

/-! ### The slot table (chapter 1) -/

/-- A generation a slot holds: its number and the cell that holds its key (R6). -/
structure Gen where
  num : Nat
  cell : Fin 48
deriving DecidableEq, Repr

/-- The attributes LOAD_PLAIN sets and UNLOAD removes (R4), with the stored grace. -/
structure Attrs where
  cls : SlotClass
  erase : Bool
  tslot : Fin 16
  smin : Nat
  label : List Byte
  grace : Nat
deriving DecidableEq, Repr

/-- The persistent part of a slot record (R1), with the cell of each generation (R6). `attrs = none` is an UNUSED slot. -/
structure Pers where
  attrs : Option Attrs
  highest : Nat
  pending : Option Gen
  current : Option Gen
  outgoing : Option Gen
  mpView : Option View
  npView : Option View
  /-- the pending activation mode, stored only as ON_COMMAND (R11) -/
  onCommand : Bool
deriving DecidableEq, Repr

/-- The port that a reply is owed to, and whether a port restart has condemned the command (R179). -/
structure Waiter where
  port : Port
  condemned : Bool
deriving DecidableEq, Repr

/-- Who is answered when a change is applied or withdrawn (R16, R17). -/
inductive Source where
  /-- a command of a port -/
  | command (w : Waiter)
  /-- the envelope in the envelope receiver -/
  | envelope
  /-- nobody: an expiry, a zeroize or a start-up correction -/
  | part
deriving DecidableEq, Repr

/-- What a change does to its slot (R14). `commit` is the commit it belongs to. -/
inductive ChangeKind where
  /-- LOAD_PLAIN (R165) -/
  | load (attrs : Attrs) (gen : Nat) (cell : Fin 48) (commit : Nat)
  /-- UNLOAD (R166) -/
  | unload
  /-- ACTIVATE of the generation named (R131) -/
  | activate (gen : Nat)
  /-- ADOPT by a port of the generation named (R136) -/
  | adopt (p : Port) (gen : Nat)
  /-- RENEW, IMMEDIATE or ON_COMMAND, with the grace after the clamp (R124) -/
  | renew (immediate : Bool) (gen grace : Nat) (cell : Fin 48) (commit : Nat)
  /-- CANCEL (R125) -/
  | cancel (gen : Nat) (commit : Nat)
  /-- grace expiry (R139) -/
  | expiry
  /-- zeroize (R170) -/
  | zeroize
  /-- start-up correction: already applied, so folding it changes nothing (R101) -/
  | correction
deriving DecidableEq, Repr

/-- An awaiting change (R14): `ready` as R15 gives, `taken` while it is in the SLOT record in flight (R17, R18). -/
structure Change where
  kind : ChangeKind
  ready : Bool
  taken : Bool
  source : Source
deriving DecidableEq, Repr

/-- A slot record: the applied persistent part and the RAM part (R1). -/
structure Slot where
  applied : Pers
  graceLeft : Option Nat
  zeroizing : Bool
  /-- a tamper event waits for the SLOT record in flight of this EMPTY or UNUSED slot (R171) -/
  armed : Bool
  awaiting : List Change
deriving DecidableEq, Repr

/-! ### The counter unit (chapter 2) -/

/-- The progress of a window's reservation (R24). -/
inductive Reservation where
  | none | wanted | queued | inFlight
deriving DecidableEq, Repr

/-- The request a held TAG carries (R24): a quick message or a chain's declared length. -/
inductive HeldRequest where
  | quick (message : List Byte)
  | chain (n : Nat)
deriving DecidableEq, Repr

/-- A held TAG request (R40). -/
structure Held where
  waiter : Waiter
  request : HeldRequest
deriving DecidableEq, Repr

/-- The window of one generation (R24). -/
structure Window where
  slot : Fin 16
  gen : Nat
  t : Nat
  p : Nat
  sCur : Nat
  grantTime : Count
  grantCounter : Nat
  rateKnown : Bool
  exhausted : Bool
  reservation : Reservation
  held : List Held
deriving DecidableEq, Repr

/-! ### The journal controller (chapter 3) -/

/-- The state of a cell in the cell table (R49). A RELEASED cell keeps the slot number, as its byte, and the generation it was bound to. -/
inductive Cell where
  | free
  | used (slot : Fin 16) (gen : Nat)
  | released (was : Option (Byte × Nat))
  | bad
deriving DecidableEq, Repr

/-- An entry of the page table (R54). `used` is the last used position, 0 to 31. -/
structure Page where
  role : PageRole
  erases : Nat
  seq : Option Nat
  used : Nat
  failed : Nat
deriving DecidableEq, Repr

/-- The fact keys of records (R56). -/
inductive FactKey where
  | ceil (slot : Fin 16) (gen : Nat)
  | slot (slot : Fin 16)
  | life
  | tamper
  | pagebad (page : Fin 8)
deriving DecidableEq, Repr

/-- An entry of the fact index (R57). Position `pos` of a page is `pos + 1` in the numbering of R53. -/
structure Fact where
  key : FactKey
  page : Fin 8
  pos : Fin 31
  seq : Nat
deriving DecidableEq, Repr

/-- What a record of each kind says (R56). -/
inductive Body where
  | ceil (slot : Fin 16) (gen ceiling stride : Nat)
  | slot (slot : Fin 16) (p : Pers)
  | life (l : Lifecycle) (id : Option Ident)
  | tamper (count : Nat)
  | pagebad (page : Fin 8)
deriving DecidableEq, Repr

/-- A record as it stands in a position (R188). -/
structure Record where
  seq : Nat
  kind : Byte
  slot : Byte
  payload : List Byte
deriving DecidableEq, Repr

/-- One stored item: a stamp, a record or a cell. `broken` is neither erased nor intact, with contents the spec leaves open. -/
inductive Item where
  | erased
  | bytes (b : List Byte)
  | broken
deriving DecidableEq, Repr

/-- One page of the journal in the store: the two stamps of position 0 and positions 1 to 31 (R53, R188). -/
structure StoredPage where
  wear : Item
  stamp : Item
  records : Vector Item 31
deriving DecidableEq, Repr

/-- The non-volatile store: the journal and the cell area (R49, R53). -/
structure Store where
  pages : Vector StoredPage 8
  cells : Vector Item 48
deriving DecidableEq, Repr

/-! ### The program engine (chapter 4) -/

/-- The stamps a header program writes (R75). -/
inductive Stamps where
  | sequence | wear | both
deriving DecidableEq, Repr

/-- The kind and identity of a job (R75). -/
inductive JobId where
  | ceil (slot : Fin 16) (gen : Nat)
  | slot (slot : Fin 16)
  | life
  | tamper
  | pagebad (page : Fin 8)
  | carry (page : Fin 8) (pos : Fin 31)
  | pageErase (page : Fin 8)
  | header (page : Fin 8) (stamps : Stamps)
  | cellProgram (cell : Fin 48)
  | cellErase (cell : Fin 48)
deriving DecidableEq, Repr

/-- The blocks that place jobs and are told their outcomes (R74). -/
inductive Requester where
  | counterUnit | keyStore | envelopeReceiver | lifecycleMonitor | journal
deriving DecidableEq, Repr

/-- A job on the work list (R74). `commits` names the commits it is a step of and its place among their steps. -/
structure Job where
  id : JobId
  cls : Nat
  age : Nat
  requesters : List Requester
  commits : List (Nat × Nat)
deriving DecidableEq, Repr

/-- What a multi-step commit brings in or takes out (R84). -/
inductive CommitKind where
  | renew | load | cancel
deriving DecidableEq, Repr

/-- A commit that has been accepted and has not ended (R78, R84). -/
structure Commit where
  id : Nat
  kind : CommitKind
  slot : Fin 16
  gen : Nat
  /-- the allocated cell (R50) -/
  cell : Option (Fin 48)
  /-- the key for the cell program, held until that step is taken (R119, R165) -/
  key : Option Key
  /-- how many of its steps have verified -/
  verified : Nat
  /-- whether its first step has been taken -/
  opened : Bool
  /-- whether its second cell has been allocated (R51) -/
  retried : Bool
  /-- the age of its first step (R78) -/
  firstAge : Nat
deriving DecidableEq, Repr

/-- What the job in flight writes or erases, prepared when it was taken (R79). -/
inductive Work where
  | record (page : Fin 8) (pos : Fin 31) (seq : Nat) (body : Body)
  | carry (page : Fin 8) (pos : Fin 31) (record : Record)
  | header (page : Fin 8) (wear stamp : Option Nat)
  | pageErase (page : Fin 8)
  | cellProgram (cell : Fin 48) (slot : Fin 16) (gen : Nat) (key : Key)
  | cellErase (cell : Fin 48)
deriving DecidableEq, Repr

/-- The job in flight (R74). -/
structure InFlight where
  job : Job
  work : Work
deriving DecidableEq, Repr

/-! ### The envelope receiver (chapter 6) -/

/-- The state of the envelope buffer (R108). -/
inductive EnvState where
  | free | filling | checking | committing | verdict
deriving DecidableEq, Repr

/-- The kind of an envelope (R115). -/
inductive EnvKind where
  | renew | cancel
deriving DecidableEq, Repr

/-- The expected-state part of an envelope (R122); 0 for no generation in the role. -/
structure Expected where
  pending : Nat
  current : Nat
  outgoing : Nat
  highest : Nat
deriving DecidableEq, Repr

/-- The fields of an envelope (R115), `covered` being the bytes before A. -/
structure Envelope where
  kind : EnvKind
  destination : List Byte
  reference : List Byte
  slot : Fin 16
  cls : SlotClass
  tslot : Fin 16
  tgen : Nat
  gen : Nat
  immediate : Bool
  grace : Nat
  label : List Byte
  expected : Option Expected
  b : Block
  v : Tag
  a : Tag
  covered : List Byte
deriving DecidableEq, Repr

/-- The envelope buffer (R108). The unwrap job stands in the tag engine (R146). -/
structure Receiver where
  state : EnvState
  bytes : List Byte
  fillTimer : Option Count
  verdict : Option Code
  cell : Option (Fin 48)
  /-- a port restart has condemned the ENV_CLOSE reply (R114) -/
  condemned : Bool
deriving DecidableEq, Repr

/-! ### The tag engine (chapter 8) -/

/-- The requesters of the tag engine (R146). -/
inductive Client where
  | mp | np | er
deriving DecidableEq, Repr

/-- A chain context (R151). -/
structure Context where
  port : Port
  mode : ChainMode
  slot : Fin 16
  gen : Nat
  counter : Nat
  n : Nat
  taken : Nat
  x : Block
  part : List Byte
  last : Count
deriving DecidableEq, Repr

/-- A job of the tag engine (R146). -/
inductive TagJob where
  | quickTag (slot : Fin 16) (gen counter : Nat) (message : List Byte)
  | quickVerify (slot : Fin 16) (gen counter : Nat) (tag : Tag) (message : List Byte)
  | chainOpen (slot : Fin 16) (gen : Nat) (mode : ChainMode) (counter n : Nat)
  | chainData (bytes : List Byte)
  | chainClose (tag : Option Tag)
  | unwrap (e : Envelope)
deriving DecidableEq, Repr

/-- How a chain in flight will be aborted when its job ends (R148, R158). -/
inductive Abort where
  | no | silent | event
deriving DecidableEq, Repr

/-- The tag engine's job in flight, with the key it obtained (R148). `condemned` says that a port restart discards its reply (R159)
or that the envelope receiver discards its result (R126). -/
structure TagRun where
  client : Client
  job : TagJob
  key : Key
  abort : Abort
  condemned : Bool
deriving DecidableEq, Repr

/-- The tag engine (R146). -/
structure TagEngine where
  mp : Option TagJob
  np : Option TagJob
  er : Option TagJob
  run : Option TagRun
  last : Client
  live : Option Context
  parked : Option Context
deriving DecidableEq, Repr

/-! ### Lifecycle and tamper (chapter 9) -/

/-- A LIFE change accepted and not yet written (R162), `taken` while it is in the LIFE record in flight. -/
structure LifeChange where
  target : Lifecycle
  identity : Option Ident
  waiter : Waiter
  taken : Bool
deriving DecidableEq, Repr

/-- The debounced cover state (R169). -/
inductive Cover where
  | closed | opened
deriving DecidableEq, Repr

/-! ### The ports (chapter 10) -/

/-- What a STATUS_READ reply without PEEK showed, to be acknowledged at its delivery (R181). -/
structure Shown where
  reset : Bool
  forced : Option Word
  store : Option StoreMode
  cellLost : Option Word
  tamper : Option Word
  chainAbort : Bool
  envAbort : Bool
  errors : Nat
deriving DecidableEq, Repr

/-- Who is told of a reply's delivery, loss or discarding (R175). -/
inductive Maker where
  | plain
  | verdict
  | status (shown : Shown)
deriving DecidableEq, Repr

/-- A reply in a port's buffer (R175). -/
structure Reply where
  words : List Word
  maker : Maker
deriving DecidableEq, Repr

/-- The port's command and reply (R177): IDLE, WAITING or READY. -/
inductive PortJob where
  | idle
  | waiting (c : Cmd)
  | ready (r : Reply)
deriving DecidableEq, Repr

/-- The offer of the transfer in progress (R173). `busy` says that a command was in flight when the transfer began (R177); `live` is
false for a transfer that began in reset or during STARTING (R90, R92). -/
structure Offer where
  status : Word
  reply : List Word
  busy : Bool
  live : Bool
deriving DecidableEq, Repr

/-- The latched kinds of an event set with their details (R180). The `New` flags say that the kind was set since the last
STATUS_READ reply was made (R181). -/
structure Events where
  reset : Option Cause
  forced : Option Word
  store : Option StoreMode
  cellLost : Option Word
  tamper : Option Word
  chainAbort : Bool
  chainAbortNew : Bool
  envAbort : Bool
  envAbortNew : Bool
  link : Bool
deriving DecidableEq, Repr

/-- A port controller (R173 to R183). -/
structure PortState where
  job : PortJob
  offer : Option Offer
  ferr : Bool
  busyref : Bool
  lost : Bool
  events : Events
  mask : Word
  errors : Nat
deriving DecidableEq, Repr

/-! ### The part -/

/-- Whether the part is held in reset, in start-up (before or after the sample of TAMP, R104), or running (R90, R107). -/
inductive Phase where
  | held | replayed | sampled | running
deriving DecidableEq, Repr

/-- Everything the part holds; all but `store`, the lines and `draws` is RAM, lost at a reset (chapter 5). -/
structure Part where
  phase : Phase
  /-- the supply has been out of range since the last start-up ended, or no start-up has ended yet (R90) -/
  powerCause : Bool
  -- the lines (00_scope, "The outside")
  supply : Bool
  rstn : Bool
  pfw : Bool
  tamp : Bool
  -- the timebase (R25)
  ms : Count
  sec : Count
  -- the ports (chapter 10), and the events start-up holds aside (R92)
  mp : PortState
  np : PortState
  mpAside : Events
  npAside : Events
  -- the key store controller (chapter 1)
  slots : Vector Slot 16
  -- the counter unit (chapter 2)
  windows : List Window
  -- the journal controller (chapter 3)
  pages : Vector Page 8
  cells : Vector Cell 48
  allocNext : Fin 48
  facts : List Fact
  nextSeq : Nat
  nextPageSeq : Nat
  headStamped : Bool
  reclaim : Option (Fin 8)
  fullReclaims : Nat
  mode : StoreMode
  wear : Nat
  -- the program engine (chapter 4)
  jobs : List Job
  nextAge : Nat
  inFlight : Option InFlight
  commits : List Commit
  -- the envelope receiver (chapter 6)
  receiver : Receiver
  -- the tag engine (chapter 8)
  te : TagEngine
  -- the lifecycle and tamper monitor (chapter 9)
  lifecycle : Lifecycle
  identity : Option Ident
  lifeChanges : List LifeChange
  tamperCount : Nat
  sealWindow : Option (Port × Count)
  cover : Cover
  debounce : Option Count
  -- the non-volatile store
  store : Store
  /-- the model's count of free values taken (Config) -/
  draws : Nat
deriving DecidableEq, Repr

/-- The machine: the part and the queue of commands that wait, first in, first out. -/
structure State extends Part where
  pending : List Instr
deriving DecidableEq, Repr

/-- The faults of the part: none. Every command has an effect in every state, so no meaning raises a fault; the type is closed and
empty (safe). -/
inductive Fault where
deriving DecidableEq, Repr

/-- Why a command is refused. -/
inductive Refusal where
  /-- Raised by an arm of `exec` whose command has no meaning yet; no arm raises it now (safe). -/
  | notModelled (mnemonic : String)
deriving DecidableEq, Repr

/-! ### Reset values -/

/-- An empty event set (R180). -/
def Events.none : Events :=
  { reset := .none, forced := .none, store := .none, cellLost := .none, tamper := .none, chainAbort := false,
    chainAbortNew := false, envAbort := false, envAbortNew := false, link := false }

/-- An UNUSED slot with highest generation seen 0 (R1). -/
def Pers.blank : Pers :=
  { attrs := none, highest := 0, pending := none, current := none, outgoing := none, mpView := none, npView := none,
    onCommand := false }

/-- A slot as it is before its SLOT record is read (R1). -/
def Slot.blank : Slot :=
  { applied := .blank, graceLeft := none, zeroizing := false, armed := false, awaiting := [] }

/-- A port after either reset (R173, R174): no reply, no command in flight, flags clear, event set empty, every kind enabled
(R182), frame-error count 0 (R176). -/
def PortState.blank : PortState :=
  { job := .idle, offer := none, ferr := false, busyref := false, lost := false, events := .none, mask := 0x07FF, errors := 0 }

/-- A page as it is before its header is read. DESIGN CHOICE (log entry 3): the header step sets every entry before any use. -/
def Page.blank : Page := { role := .reserve, erases := 0, seq := none, used := 0, failed := 0 }

/-- The tag engine after either reset (R146): no job, no context, last served ER. -/
def TagEngine.blank : TagEngine :=
  { mp := none, np := none, er := none, run := none, last := .er, live := none, parked := none }

/-- The envelope buffer after either reset (R108). -/
def Receiver.blank : Receiver :=
  { state := .free, bytes := [], fillTimer := none, verdict := none, cell := none, condemned := false }

/-- An erased page (R54). -/
def StoredPage.erased : StoredPage := { wear := .erased, stamp := .erased, records := Vector.replicate 31 .erased }

/-- A store that has never been written (R54). -/
def Store.blank : Store := { pages := Vector.replicate 8 .erased, cells := Vector.replicate 48 .erased }

/-- The part right after a power-on reset of a part whose store has never been written: held in reset with the supply in range and
RSTN high, so that START_UP is the next event (R90). The lines PFW and TAMP inactive: log entry 3. -/
def Part.reset : Part :=
  { phase := .held, powerCause := true, supply := true, rstn := true, pfw := false, tamp := false, ms := 0, sec := 0,
    mp := .blank, np := .blank, mpAside := .none, npAside := .none, slots := Vector.replicate 16 .blank, windows := [],
    pages := Vector.replicate 8 .blank, cells := Vector.replicate 48 .free, allocNext := 0, facts := [], nextSeq := 1,
    nextPageSeq := 1, headStamped := false, reclaim := none, fullReclaims := 0, mode := .normal, wear := 0, jobs := [],
    nextAge := 1, inFlight := none, commits := [], receiver := .blank, te := .blank, lifecycle := .blank, identity := none,
    lifeChanges := [], tamperCount := 0, sealWindow := none, cover := .closed, debounce := none, store := .blank, draws := 0 }

/-- The machine right after reset, with no command waiting. -/
def State.reset : State := { toPart := .reset, pending := [] }

end Sys2Proof.Machine
end

