-- ==== Sys2Proof/Machine/Formats.lean ====
section
/-! DEFINITION. The layouts of chapter 11: the codes (R185), reply items (R186), and the stored items (R188). -/

namespace Sys2Proof.Machine

/-! ### Codes (R185) -/

/-- The command code of the header's upper byte (R185). -/
def Cmd.code : Cmd → Byte
  | .nop => 0x00 | .statusRead => 0x01 | .setMask => 0x02 | .slotInfo => 0x03 | .storeInfo => 0x04
  | .quickTag => 0x10 | .quickVerify => 0x11 | .chainOpen => 0x12 | .chainData => 0x13 | .chainClose => 0x14
  | .chainDrop => 0x15
  | .envOpen => 0x20 | .envData => 0x21 | .envClose => 0x22 | .envDrop => 0x23 | .activate => 0x24 | .adopt => 0x25
  | .setIdentity => 0x30 | .loadPlain => 0x31 | .unload => 0x32 | .seal => 0x33

/-- Every command of the code table. -/
def allCmds : List Cmd :=
  [.nop, .statusRead, .setMask, .slotInfo, .storeInfo, .quickTag, .quickVerify, .chainOpen, .chainData, .chainClose, .chainDrop,
   .envOpen, .envData, .envClose, .envDrop, .activate, .adopt, .setIdentity, .loadPlain, .unload, .seal]

/-- The command a code names, if it is in the table (R176, R185). -/
def cmdOfCode (b : Byte) : Option Cmd := allCmds.find? (fun c => c.code == b)

/-- Result codes (R185). -/
def Code.byte : Code → Byte
  | .ok => 0x00 | .match_ => 0x01 | .mismatch => 0x02
  | .badArg => 0x10 | .rights => 0x11 | .lifecycle => 0x12 | .slotState => 0x13 | .noGen => 0x14 | .exhausted => 0x15
  | .windowClosed => 0x16 | .chainNone => 0x17 | .chainOpen => 0x18 | .chainLength => 0x19 | .envBusy => 0x1A
  | .envNone => 0x1B | .store => 0x1C | .noCell => 0x1D | .powerLow => 0x1E | .sealPrecondition => 0x1F
  | .committed => 0x20 | .envForm => 0x21 | .envCheck => 0x22 | .envNotOurs => 0x23 | .envLifecycle => 0x24
  | .envSlot => 0x25 | .envTransport => 0x26 | .envIntegrity => 0x27 | .envStale => 0x28 | .envPending => 0x29
  | .envSwitching => 0x2A | .envStore => 0x2B | .envNoCell => 0x2C | .envPower => 0x2D | .envNoPending => 0x2E
  | .envTamper => 0x2F

/-- Class codes; 0 is absent (R185). -/
def SlotClass.code : SlotClass → Byte
  | .transport => 1 | .shared => 2 | .metrology => 3 | .network => 4

/-- The class a code names (R185). -/
def classOfCode (b : Byte) : Option SlotClass :=
  if b = 1 then some .transport else if b = 2 then some .shared else if b = 3 then some .metrology
  else if b = 4 then some .network else none

/-- Slot state codes (R185). -/
def SlotState.code : SlotState → Byte
  | .unused => 0 | .empty => 1 | .ready => 2 | .staged => 3 | .switching => 4 | .switchingStaged => 5 | .zeroizing => 6

/-- View codes; 0 is absent (R185). -/
def viewCode : Option View → Byte
  | none => 0 | some .current => 1 | some .outgoing => 2

/-- The view a code names (R185). -/
def viewOfCode (n : Nat) : Option View := if n = 1 then some .current else if n = 2 then some .outgoing else none

/-- Lifecycle codes (R185). -/
def Lifecycle.code : Lifecycle → Byte
  | .blank => 0 | .provisioned => 1 | .sealed => 2

/-- The lifecycle a code names (R185). -/
def lifecycleOfCode (b : Byte) : Lifecycle := if b = 1 then .provisioned else if b = 2 then .sealed else .blank

/-- Store mode codes (R185). -/
def StoreMode.code : StoreMode → Byte
  | .normal => 0 | .degraded => 1 | .failed => 2

/-- Page role codes (R185). -/
def PageRole.code : PageRole → Byte
  | .spare => 0 | .reserve => 1 | .head => 2 | .closed => 3 | .retiring => 4 | .bad => 5

/-- RESET cause codes; 0 is absent (R185). -/
def causeCode : Option Cause → Byte
  | none => 0 | some .power => 1 | some .pin => 2

/-- Envelope kind codes (R185). -/
def EnvKind.code : EnvKind → Byte
  | .renew => 1 | .cancel => 2

/-- A yes or no item (R186). -/
def yesNo (b : Bool) : Byte := if b then 1 else 0

/-- The slot mask holding one slot (R185). -/
def slotBit (s : Fin 16) : Word := (1 : Word) <<< s.val

/-- Every slot, in slot order. -/
def allSlots : List (Fin 16) := [0, 1, 2, 3, 4, 5, 6, 7, 8, 9, 10, 11, 12, 13, 14, 15]

/-- Every page, in page order. -/
def allPages : List (Fin 8) := [0, 1, 2, 3, 4, 5, 6, 7]

/-- Every cell, in cell order. -/
def allCells : List (Fin 48) :=
  [0, 1, 2, 3, 4, 5, 6, 7, 8, 9, 10, 11, 12, 13, 14, 15, 16, 17, 18, 19, 20, 21, 22, 23, 24, 25, 26, 27, 28, 29, 30, 31,
   32, 33, 34, 35, 36, 37, 38, 39, 40, 41, 42, 43, 44, 45, 46, 47]

/-- Every record position of a page, in position order. -/
def allPositions : List (Fin 31) :=
  [0, 1, 2, 3, 4, 5, 6, 7, 8, 9, 10, 11, 12, 13, 14, 15, 16, 17, 18, 19, 20, 21, 22, 23, 24, 25, 26, 27, 28, 29, 30]

/-- The mask of the slots that satisfy a test (R185). -/
def maskOf (f : Fin 16 → Bool) : Word := allSlots.foldl (fun m s => if f s then m ||| slotBit s else m) 0

/-! ### Reply items (R186) -/

/-- An item of a reply: one that takes a byte, or one that takes words of its own. -/
inductive ReplyItem where
  | byte (b : Byte)
  | words (w : List Word)
deriving DecidableEq, Repr

/-- The words of reply items: adjacent byte items paired in table order, a byte with no byte beside it in an upper half (R186). -/
def layItems : List ReplyItem → List Word
  | [] => []
  | .words w :: rest => w ++ layItems rest
  | .byte a :: .byte b :: rest => pair a b :: layItems rest
  | [.byte a] => [pair a 0]
  | .byte a :: .words w :: rest => pair a 0 :: (w ++ layItems rest)

/-- An item of one word: a generation, grace or mask (R186). -/
def word1 (n : Nat) : ReplyItem := .words [BitVec.ofNat 16 n]

/-- An item of two words: a counter, T, P, tamper count or erase count (R186). -/
def word2 (n : Nat) : ReplyItem := .words (toWords 2 n)

/-- A tag or identity: four words (R186). -/
def word4 (x : BitVec 64) : ReplyItem := .words (toWords 4 x.toNat)

/-- A label's three words, unused bytes zero (R186). -/
def labelWords (l : List Byte) : ReplyItem := .words (packBytes ((l ++ List.replicate 6 0).take 6))

/-- A reply: its first word holds the result code and the command code it answers (R186). -/
def replyWords (r : Code) (c : Cmd) (items : List ReplyItem) : List Word := pair r.byte c.code :: layItems items

/-! ### Stored items (R188) -/

/-- How a stored item reads (R93, R95, R98). -/
inductive Reading (α : Type) where
  | erased
  | intact (a : α)
  | broken
deriving DecidableEq, Repr

/-- The value of an intact item. -/
def Reading.get? {α : Type} : Reading α → Option α
  | .intact a => some a
  | .erased | .broken => none

/-- Whether the item reads erased. -/
def Reading.isErased {α : Type} : Reading α → Bool
  | .erased => true
  | .intact _ | .broken => false

/-- Bytes filled up with zero bytes, or cut, to a length. -/
def fit (n : Nat) (b : List Byte) : List Byte := (b ++ List.replicate n 0).take n

/-- A content with the check word that covers it (R184, initial value 0000h). -/
def withCheck (b : List Byte) : List Byte := b ++ wordPair (crc 0 b)

/-- The content of `n` bytes before a check word, if the item has that length and its check word is right. -/
def checked (n : Nat) (b : List Byte) : Option (List Byte) :=
  if b.length = n + 2 ∧ b.drop n = wordPair (crc 0 (b.take n)) then some (b.take n) else none

/-- The bytes of a stored item, read with a decoder of its content of `n` bytes. -/
def readItem {α : Type} (n : Nat) (dec : List Byte → Option α) : Item → Reading α
  | .erased => .erased
  | .broken => .broken
  | .bytes b =>
    if readsErased b then .erased else
      match checked n b with
      | none => .broken
      | some c => match dec c with
        | some a => .intact a
        | none => .broken

/-- A stamp: marker, number, zero bytes, check word (R188). -/
def encodeStamp (marker : Byte) (n : Nat) : Item := .bytes (withCheck (marker :: toBytes 4 n ++ List.replicate 9 0))

/-- Reads a stamp: intact when its check word is right, whatever its marker (R93, R184). -/
def readStamp : Item → Reading Nat := readItem 14 (fun c => some (ofBytes ((c.drop 1).take 4)))

/-- The marker of a wear stamp (R188). -/
def wearMarker : Byte := 0x57

/-- The marker of a sequence stamp (R188). -/
def seqMarker : Byte := 0x53

/-- A record's 32 bytes (R188). -/
def encodeRecord (r : Record) : Item := .bytes (withCheck (toBytes 4 r.seq ++ r.kind :: r.slot :: fit 24 r.payload))

/-- Reads a record; a kind that is not one of the five is broken (R188). -/
def readRecord : Item → Reading Record :=
  readItem 30 (fun c =>
    let kind := c.getD 4 0
    if 1 ≤ kind.toNat ∧ kind.toNat ≤ 5 then
      some { seq := ofBytes (c.take 4), kind := kind, slot := c.getD 5 0, payload := c.drop 6 }
    else none)

/-- A slot number as a byte: half an argument word (R186), the slot byte of a record or a cell (R188). -/
def slotByte (i : Fin 16) : Byte := BitVec.ofNat 8 i.val

/-- What a programmed cell holds (R49), its slot number as the byte stored (R188). -/
structure KeyCell where
  slot : Byte
  gen : Nat
  key : Key
deriving DecidableEq, Repr

/-- A cell's 64 bytes (R188). -/
def encodeCell (k : KeyCell) : Item :=
  .bytes (withCheck ([0x5A, 0xC3, k.slot, 0] ++ toBytes 2 k.gen ++ bytesOf 16 k.key ++ List.replicate 40 0))

/-- The slot a number names, if it is from 0 to 15. -/
def slotOf? (n : Nat) : Option (Fin 16) := if h : n < 16 then some ⟨n, h⟩ else none

/-- The page a number names, if it is from 0 to 7. -/
def pageOf? (n : Nat) : Option (Fin 8) := if h : n < 8 then some ⟨n, h⟩ else none

/-- Reads a cell: a wrong marker or check word is broken (R98, R188). -/
def readCell : Item → Reading KeyCell :=
  readItem 62 (fun c =>
    if c.take 2 = [0x5A, 0xC3] then
      some { slot := c.getD 2 0, gen := ofBytes ((c.drop 4).take 2), key := BitVec.ofNat 128 (ofBytes ((c.drop 6).take 16)) }
    else none)

/-! ### Record payloads (R188) -/

/-- The generation number held in a role, 0 for none (R188). -/
def genNumber : Option Gen → Nat
  | none => 0
  | some g => g.num

/-- The SLOT payload (R188). -/
def slotPayload (p : Pers) : List Byte :=
  match p.attrs with
  | none => List.replicate 11 0 ++ toBytes 2 p.highest ++ List.replicate 11 0
  | some a =>
    let flags := (yesNo a.erase) ||| (yesNo p.onCommand <<< 1) ||| (viewCode p.mpView <<< 2) ||| (viewCode p.npView <<< 4)
    [a.cls.code, flags, BitVec.ofNat 8 a.tslot.val, BitVec.ofNat 8 a.smin.log2, BitVec.ofNat 8 a.label.length]
      ++ fit 6 a.label ++ toBytes 2 p.highest ++ toBytes 2 (genNumber p.pending) ++ toBytes 2 (genNumber p.current)
      ++ toBytes 2 (genNumber p.outgoing) ++ toBytes 2 a.grace ++ List.replicate 3 0

/-- The two bytes at an offset, as a number. -/
def field2 (b : List Byte) (i : Nat) : Nat := ofBytes ((b.drop i).take 2)

/-- A listed generation; the binding step finds its cell (R6, R98), and until then it is held with cell 0. -/
def listed (n : Nat) : Option Gen := if n = 0 then none else some { num := n, cell := 0 }

/-- The slot record a SLOT payload gives (R96, R188). DEDUCED (log entry 16), since no record the part writes has any of these: a class
code that is not one of the four is read as 00h, UNUSED; a transport slot above 15 modulo 16; an S_min exponent k out of range as 2 to the
k; view code 3 as an absent view; a label length above 6 as 6. -/
def payloadSlot (b : List Byte) : Pers :=
  match classOfCode (b.getD 0 0) with
  | none => { Pers.blank with highest := field2 b 11 }
  | some c =>
    let flags := (b.getD 1 0).toNat
    { attrs := some { cls := c, erase := flags % 2 = 1, tslot := ⟨(b.getD 2 0).toNat % 16, Nat.mod_lt _ (by decide)⟩,
                      smin := 2 ^ (b.getD 3 0).toNat, label := ((b.drop 5).take 6).take (b.getD 4 0).toNat,
                      grace := field2 b 19 },
      highest := field2 b 11, pending := listed (field2 b 13), current := listed (field2 b 15),
      outgoing := listed (field2 b 17), mpView := viewOfCode (flags / 4 % 4), npView := viewOfCode (flags / 16 % 4),
      onCommand := flags / 2 % 2 = 1 }

/-- The record of a body with its sequence number (R56, R188). -/
def Body.record (seq : Nat) : Body → Record
  | .ceil s g c d =>
    { seq := seq, kind := 1, slot := BitVec.ofNat 8 s.val,
      payload := fit 24 (toBytes 2 g ++ toBytes 4 c ++ toBytes 1 d.log2) }
  | .slot s p => { seq := seq, kind := 2, slot := BitVec.ofNat 8 s.val, payload := slotPayload p }
  | .life l id =>
    { seq := seq, kind := 3, slot := 0, payload := fit 24 (l.code :: (id.map (bytesOf 8)).getD []) }
  | .tamper n => { seq := seq, kind := 4, slot := 0, payload := fit 24 (toBytes 4 n) }
  | .pagebad p => { seq := seq, kind := 5, slot := 0, payload := fit 24 (toBytes 1 p.val) }

/-- What an intact record says (R56, R188). DEDUCED (log entry 16): none where its slot or page number is out of range, and a stride
exponent k out of range is taken as 2 to the k. -/
def Record.body? (r : Record) : Option Body :=
  if r.kind = 1 then
    (slotOf? r.slot.toNat).map fun s =>
      .ceil s (field2 r.payload 0) (ofBytes ((r.payload.drop 2).take 4)) (2 ^ (r.payload.getD 6 0).toNat)
  else if r.kind = 2 then (slotOf? r.slot.toNat).map fun s => .slot s (payloadSlot r.payload)
  else if r.kind = 3 then
    let l := lifecycleOfCode (r.payload.getD 0 0)
    some (.life l (if l = .blank then none else some (BitVec.ofNat 64 (ofBytes ((r.payload.drop 1).take 8)))))
  else if r.kind = 4 then some (.tamper (ofBytes (r.payload.take 4)))
  else if r.kind = 5 then (pageOf? (r.payload.getD 0 0).toNat).map .pagebad
  else none

/-- The fact key of a body (R56). -/
def Body.key : Body → FactKey
  | .ceil s g _ _ => .ceil s g
  | .slot s _ => .slot s
  | .life _ _ => .life
  | .tamper _ => .tamper
  | .pagebad p => .pagebad p

/-- The fact key of a record (R56). -/
def Record.key? (r : Record) : Option FactKey := r.body?.map Body.key

end Sys2Proof.Machine
end

