-- ==== Sys2Proof/Machine/Ops.lean ====
section
/-! DEFINITION. The named operations over the part's state: ports and their replies, events, slots and the folding of changes, the work
list, cells and windows. -/

namespace Sys2Proof.Machine

/-! ### Accessors and named updates -/

/-- A port's controller. -/
def Part.port (s : Part) : Port → PortState
  | .mp => s.mp
  | .np => s.np

/-- Replaces a port's controller. -/
def Part.setPort (s : Part) (p : Port) (x : PortState) : Part :=
  match p with
  | .mp => { s with mp := x }
  | .np => { s with np := x }

/-- Updates a port's controller. -/
def Part.modPort (s : Part) (p : Port) (f : PortState → PortState) : Part := s.setPort p (f (s.port p))

/-- A slot record. -/
def Part.slot (s : Part) (i : Fin 16) : Slot := s.slots[i]

/-- Replaces a slot record. -/
def Part.setSlot (s : Part) (i : Fin 16) (x : Slot) : Part := { s with slots := s.slots.set i x }

/-- Updates a slot record. -/
def Part.modSlot (s : Part) (i : Fin 16) (f : Slot → Slot) : Part := s.setSlot i (f (s.slot i))

/-- An entry of the page table. -/
def Part.page (s : Part) (p : Fin 8) : Page := s.pages[p]

/-- Updates an entry of the page table. -/
def Part.modPage (s : Part) (p : Fin 8) (f : Page → Page) : Part := { s with pages := s.pages.set p (f (s.page p)) }

/-- An entry of the cell table. -/
def Part.cell (s : Part) (c : Fin 48) : Cell := s.cells[c]

/-- Replaces an entry of the cell table. -/
def Part.setCell (s : Part) (c : Fin 48) (x : Cell) : Part := { s with cells := s.cells.set c x }

/-- Replaces a stored cell. -/
def Part.storeCell (s : Part) (c : Fin 48) (x : Item) : Part :=
  { s with store := { s.store with cells := s.store.cells.set c x } }

/-- Updates a stored page. -/
def Part.storePage (s : Part) (p : Fin 8) (f : StoredPage → StoredPage) : Part :=
  { s with store := { s.store with pages := s.store.pages.set p (f s.store.pages[p]) } }

/-- Replaces the item at a record position. -/
def Part.storeAt (s : Part) (p : Fin 8) (i : Fin 31) (x : Item) : Part :=
  s.storePage p (fun g => { g with records := g.records.set i x })

/-- Takes a free value's number. -/
def Part.draw (s : Part) : Part := { s with draws := s.draws + 1 }

/-- Whether the part is running: not held in reset and not in start-up. -/
def Part.running (s : Part) : Bool := s.phase = .running

/-! ### Replies (R175, R177, R186) -/

/-- Makes a reply ready on a port (WAITING to READY, R177). -/
def Part.makeReady (s : Part) (p : Port) (r : Reply) : Part := s.modPort p (fun x => { x with job := .ready r })

/-- Makes a command's reply ready, or discards it when a port restart has condemned the command (R179). -/
def Part.answer (s : Part) (w : Waiter) (c : Cmd) (r : Code) (items : List ReplyItem) : Part :=
  if w.condemned then s else s.makeReady w.port { words := replyWords r c items, maker := .plain }

/-- Answers a command with a refusal: its first word alone (R186). -/
def Part.refuse (s : Part) (w : Waiter) (c : Cmd) (r : Code) : Part := s.answer w c r []

/-! ### Events (R180) -/

/-- Unites a mask into a latched mask. -/
def uniteMask (m : Option Word) (n : Word) : Option Word := some (m.getD 0 ||| n)

/-- Sets FORCED. -/
def Events.addForced (e : Events) (m : Word) : Events := { e with forced := uniteMask e.forced m }

/-- Sets STORE with the newest mode. -/
def Events.addStore (e : Events) (m : StoreMode) : Events := { e with store := some m }

/-- Sets CELL_LOST. -/
def Events.addCellLost (e : Events) (m : Word) : Events := { e with cellLost := uniteMask e.cellLost m }

/-- Sets TAMPER. -/
def Events.addTamper (e : Events) (m : Word) : Events := { e with tamper := uniteMask e.tamper m }

/-- Sets CHAIN_ABORT. -/
def Events.addChainAbort (e : Events) : Events := { e with chainAbort := true, chainAbortNew := true }

/-- Sets ENV_ABORT. -/
def Events.addEnvAbort (e : Events) : Events := { e with envAbort := true, envAbortNew := true }

/-- Sets an event of a port: in its event set while the part runs, held aside during start-up (R92). -/
def Part.raise (s : Part) (p : Port) (f : Events → Events) : Part :=
  if s.running then s.modPort p (fun x => { x with events := f x.events })
  else match p with
    | .mp => { s with mpAside := f s.mpAside }
    | .np => { s with npAside := f s.npAside }

/-- Sets an event on both ports. -/
def Part.raiseBoth (s : Part) (f : Events → Events) : Part := (s.raise .mp f).raise .np f

/-! ### Slots (R2, R8, R12) -/

/-- Whether a port is a user of a class (R2). -/
def SlotClass.user : SlotClass → Port → Bool
  | .transport, _ => false
  | .shared, _ => true
  | .metrology, p => p = .mp
  | .network, p => p = .np

/-- The class of a slot, absent in UNUSED (R1). -/
def Pers.cls (p : Pers) : Option SlotClass := p.attrs.map Attrs.cls

/-- Whether a port is a user of the slot (R2): an UNUSED slot has none. -/
def Pers.user (p : Pers) (q : Port) : Bool :=
  match p.attrs with
  | none => false
  | some a => a.cls.user q

/-- A port's view (R8). -/
def Pers.view (p : Pers) : Port → Option View
  | .mp => p.mpView
  | .np => p.npView

/-- The slot state other than ZEROIZING (R12). -/
def Pers.state (p : Pers) : SlotState :=
  match p.attrs, p.current, p.pending, p.outgoing with
  | none, _, _, _ => .unused
  | some _, none, _, _ => .empty
  | some _, some _, none, none => .ready
  | some _, some _, some _, none => .staged
  | some _, some _, none, some _ => .switching
  | some _, some _, some _, some _ => .switchingStaged

/-- Whether the state holds a usable CURRENT generation (R12). -/
def SlotState.holds : SlotState → Bool
  | .ready | .staged | .switching | .switchingStaged => true
  | .unused | .empty | .zeroizing => false

/-- Whether the state is a switch (R129). -/
def SlotState.inSwitch : SlotState → Bool
  | .switching | .switchingStaged => true
  | .unused | .empty | .ready | .staged | .zeroizing => false

/-- The slot's state as seen by all uses (R12, R13). -/
def Slot.state (x : Slot) : SlotState := if x.zeroizing then .zeroizing else x.applied.state

/-- The generation in a view's role. -/
def Pers.viewed (p : Pers) : View → Option Gen
  | .current => p.current
  | .outgoing => p.outgoing

/-- Whether a generation number is held in a role. -/
def isGen (g : Option Gen) (n : Nat) : Bool :=
  match g with
  | none => false
  | some x => x.num = n

/-- Whether the slot holds a number as CURRENT or OUTGOING (R21, R22). -/
def Pers.holdsUsable (p : Pers) (n : Nat) : Bool := isGen p.current n || isGen p.outgoing n

/-- Whether any view names OUTGOING (R8). -/
def Pers.anyOutgoingView (p : Pers) : Bool := p.mpView = some .outgoing || p.npView = some .outgoing

/-- Whether a generation of the slot issues (R26). -/
def Pers.issues (p : Pers) (n : Nat) : Bool :=
  (p.attrs.map Attrs.cls != some .transport) && (isGen p.current n || (isGen p.outgoing n && p.anyOutgoingView))

/-- The generations a slot holds: CURRENT, OUTGOING, PENDING. In this order a record's removed generations release their cells (DESIGN CHOICE,
log entry 46). -/
def Pers.gens (p : Pers) : List Gen := p.current.toList ++ p.outgoing.toList ++ p.pending.toList

/-- The generations to report as issuing: CURRENT, then OUTGOING while a view names it (R16, R26). -/
def Pers.issuing (p : Pers) : List (View × Gen) :=
  ((p.current.toList.map (fun g => (View.current, g))) ++ (p.outgoing.toList.map (fun g => (View.outgoing, g)))).filter
    (fun x => p.issues x.2.num)

/-! ### Folding changes (R124, R125, R131, R136, R139, R165, R166, R170) -/

/-- The views of a slot entering READY from EMPTY or UNUSED: one per user, naming CURRENT (R8). -/
def freshView (c : SlotClass) (q : Port) : Option View := if c.user q then some .current else none

/-- A view that named CURRENT names OUTGOING after activation (R8). -/
def viewBehind : Option View → Option View
  | none => none
  | some _ => some .outgoing

/-- A view forced or adopted to CURRENT. -/
def viewAhead : Option View → Option View
  | none => none
  | some _ => some .current

/-- A new generation becomes CURRENT and the old CURRENT becomes OUTGOING, the views still naming the old one (R124, R131). -/
def Pers.switchTo (p : Pers) (g : Gen) : Pers :=
  { p with current := some g, outgoing := p.current, mpView := viewBehind p.mpView, npView := viewBehind p.npView }

/-- Activation of the PENDING generation (R131). -/
def Pers.activate (p : Pers) : Pers :=
  match p.pending with
  | none => p
  | some g => { (p.switchTo g) with pending := none, onCommand := false }

/-- Removal of OUTGOING when every view names CURRENT (R136). -/
def Pers.retireIfDone (p : Pers) : Pers := if p.anyOutgoingView then p else { p with outgoing := none }

/-- Adoption by one port (R136). -/
def Pers.adopt (p : Pers) (q : Port) : Pers :=
  (match q with
    | .mp => { p with mpView := viewAhead p.mpView }
    | .np => { p with npView := viewAhead p.npView }).retireIfDone

/-- Grace expiry (R139). -/
def Pers.expire (p : Pers) : Pers :=
  match p.outgoing with
  | none => p
  | some _ => { p with mpView := viewAhead p.mpView, npView := viewAhead p.npView, outgoing := none }

/-- LOAD_PLAIN's change (R165). -/
def Pers.load (_p : Pers) (a : Attrs) (g : Gen) : Pers :=
  { attrs := some a, highest := g.num, pending := none, current := some g, outgoing := none,
    mpView := freshView a.cls .mp, npView := freshView a.cls .np, onCommand := false }

/-- UNLOAD's change (R166). -/
def Pers.unload (p : Pers) : Pers := { Pers.blank with highest := p.highest }

/-- The zeroize change (R170): the attributes stay as they are. A slot whose UNLOAD has verified beneath ZEROIZING (R18) has none, and its
zeroize record leaves it UNUSED, as R12 gives for a slot without a class, where R170 says EMPTY: DEDUCED (log entry 52). -/
def Pers.zeroize (p : Pers) : Pers :=
  { p with pending := none, current := none, outgoing := none, mpView := none, npView := none, onCommand := false }

/-- RENEW's change on the slot as folded up to it (R124). A slot in another state is left as it stands: no accepted RENEW meets one. -/
def Pers.renew (p : Pers) (immediate : Bool) (grace : Nat) (g : Gen) : Pers :=
  match p.attrs with
  | none => p
  | some a =>
    let q := { p with attrs := some { a with grace := grace }, highest := g.num }
    match p.state, immediate with
    | .empty, _ => { q with current := some g, mpView := freshView a.cls .mp, npView := freshView a.cls .np }
    | .ready, true => q.switchTo g
    | .ready, false => { q with pending := some g, onCommand := true }
    | .switching, false => { q with pending := some g, onCommand := true }
    | _, _ => p

/-- CANCEL's change (R125). -/
def Pers.cancel (p : Pers) : Pers := { p with pending := none, onCommand := false }

/-- One change folded into a slot (R15). -/
def Pers.fold (p : Pers) : ChangeKind → Pers
  | .load a g c _ => p.load a { num := g, cell := c }
  | .unload => p.unload
  | .activate _ => p.activate
  | .adopt q _ => p.adopt q
  | .renew i g gr c _ => p.renew i gr { num := g, cell := c }
  | .cancel _ _ => p.cancel
  | .expiry => p.expire
  | .zeroize => p.zeroize
  | .correction => p

/-- The projected state: the applied state with every awaiting change folded in, in arrival order (R14). -/
def Slot.projected (x : Slot) : Pers := x.awaiting.foldl (fun p c => p.fold c.kind) x.applied

/-- The projected state of a slot (R14). -/
def Part.projected (s : Part) (i : Fin 16) : Pers := (s.slot i).projected

/-- The commit a change belongs to (R84). -/
def ChangeKind.commit? : ChangeKind → Option Nat
  | .load _ _ _ k => some k
  | .renew _ _ _ _ k => some k
  | .cancel _ k => some k
  | .unload | .activate _ | .adopt _ _ | .expiry | .zeroize | .correction => none

/-- The command a change answers. -/
def ChangeKind.cmd : ChangeKind → Cmd
  | .load _ _ _ _ => .loadPlain
  | .unload => .unload
  | .activate _ => .activate
  | .adopt _ _ => .adopt
  | .renew _ _ _ _ _ | .cancel _ _ => .envClose
  | .expiry | .zeroize | .correction => .nop

/-! ### The work list (R74, R75) -/

/-- Whether a job appends a record (R75). -/
def JobId.isRecord : JobId → Bool
  | .ceil _ _ | .slot _ | .life | .tamper | .pagebad _ => true
  | .carry _ _ | .pageErase _ | .header _ _ | .cellProgram _ | .cellErase _ => false

/-- Whether a job is a step of a head switch or a reclaim (R76, class 1). -/
def JobId.isRing : JobId → Bool
  | .carry _ _ | .pageErase _ | .header _ _ => true
  | .ceil _ _ | .slot _ | .life | .tamper | .pagebad _ | .cellProgram _ | .cellErase _ => false

/-- Adds requesters that are not there yet. -/
def uniteRequesters (a b : List Requester) : List Requester := a ++ b.filter (fun x => !a.contains x)

/-- Adds commit steps that are not there yet. -/
def uniteCommits (a b : List (Nat × Nat)) : List (Nat × Nat) := a ++ b.filter (fun x => !a.contains x)

/-- Two jobs of one identity as one: the older age, the lower class, all requesters and commits (R75). -/
def Job.merge (j k : Job) : Job :=
  { j with cls := min j.cls k.cls, age := min j.age k.age, requesters := uniteRequesters j.requesters k.requesters,
           commits := uniteCommits j.commits k.commits }

/-- A job put into a list kept in order of age. -/
def insertByAge (j : Job) : List Job → List Job
  | [] => [j]
  | k :: rest => if j.age < k.age then j :: k :: rest else k :: insertByAge j rest

/-- A job put on the list, merging with one of its identity (R75). -/
def putJob (j : Job) (l : List Job) : List Job :=
  match l.find? (fun k => k.id == j.id) with
  | none => insertByAge j l
  | some k => insertByAge (k.merge j) (l.filter (fun x => x.id != j.id))

/-- Places a job with the next age, or merges it with the job of its identity on the list (R75). -/
def Part.place (s : Part) (id : JobId) (cls : Nat) (r : Requester) (commits : List (Nat × Nat)) : Part :=
  { s with jobs := putJob { id := id, cls := cls, age := s.nextAge, requesters := [r], commits := commits } s.jobs,
           nextAge := s.nextAge + 1 }

/-- Takes a job off the list (R83). -/
def Part.unplace (s : Part) (id : JobId) : Part := { s with jobs := s.jobs.filter (fun j => j.id != id) }

/-- Whether a job of an identity is on the list. -/
def Part.onList (s : Part) (id : JobId) : Bool := s.jobs.any (fun j => j.id == id)

/-- Whether the engine is gated (R78). -/
def Part.gated (s : Part) : Bool := s.pfw || !s.running

/-! ### Cells (R50, R52) -/

/-- The first FREE cell from the allocation pointer, counting upward and wrapping (R50). -/
def Part.freeCell (s : Part) : Option (Fin 48) :=
  (allCells.drop s.allocNext.val ++ allCells.take s.allocNext.val).find? (fun c => s.cell c == .free)

/-- Allocates a cell: marks it USED, bound to the slot and generation (R50). -/
def Part.allocate (s : Part) (c : Fin 48) (i : Fin 16) (g : Nat) : Part :=
  { s.setCell c (.used i g) with allocNext := c + 1 }

/-- Releases a cell and places its erase in the class its cause gives (R52, R76). -/
def Part.releaseCell (s : Part) (c : Fin 48) (cls : Nat) : Part :=
  let was := match s.cell c with
    | .used i g => some (slotByte i, g)
    | .free | .released _ | .bad => none
  (s.setCell c (.released was)).place (.cellErase c) cls .journal []

/-- The cell USED for a slot's generation (R49). -/
def Part.cellOf (s : Part) (i : Fin 16) (g : Nat) : Option (Fin 48) := allCells.find? (fun c => s.cell c == .used i g)

/-- The key an intact stored cell holds. -/
def Part.keyIn (s : Part) (c : Fin 48) : Option Key := (readCell s.store.cells[c]).get?.map KeyCell.key

/-! ### Windows (R24) -/

/-- The window of a generation. -/
def Part.window (s : Part) (i : Fin 16) (g : Nat) : Option Window := s.windows.find? (fun w => w.slot == i && w.gen == g)

/-- Updates the window of a generation. -/
def Part.modWindow (s : Part) (i : Fin 16) (g : Nat) (f : Window → Window) : Part :=
  { s with windows := s.windows.map (fun w => if w.slot == i && w.gen == g then f w else w) }

/-- The largest value of T and P (R24). -/
def maxCounter : Nat := 4294967295

/-! ### The tag engine's places (R146) -/

/-- The requester a port is. -/
def clientOf : Port → Client
  | .mp => .mp
  | .np => .np

/-- The pending job of a requester. -/
def TagEngine.pendingOf (t : TagEngine) : Client → Option TagJob
  | .mp => t.mp
  | .np => t.np
  | .er => t.er

/-- Sets or clears the pending job of a requester. -/
def TagEngine.setPending (t : TagEngine) (c : Client) (j : Option TagJob) : TagEngine :=
  match c with
  | .mp => { t with mp := j }
  | .np => { t with np := j }
  | .er => { t with er := j }

/-- A requester places its job (R146). -/
def Part.placeTag (s : Part) (c : Client) (j : TagJob) : Part := { s with te := s.te.setPending c (some j) }

/-- Whether an optional context belongs to a port. -/
def ownedBy (p : Port) : Option Context → Bool
  | none => false
  | some c => c.port = p

/-- The context of a port's open chain (R151). -/
def TagEngine.context (t : TagEngine) (p : Port) : Option Context :=
  if ownedBy p t.live then t.live else if ownedBy p t.parked then t.parked else none

/-- Discards a port's context from whichever place holds it (R156). -/
def TagEngine.dropContext (t : TagEngine) (p : Port) : TagEngine :=
  { t with live := if ownedBy p t.live then none else t.live, parked := if ownedBy p t.parked then none else t.parked }

/-- Updates a port's context where it stands. -/
def TagEngine.modContext (t : TagEngine) (p : Port) (f : Context → Context) : TagEngine :=
  { t with live := if ownedBy p t.live then t.live.map f else t.live,
           parked := if ownedBy p t.parked then t.parked.map f else t.parked }

/-- The chain step of a port that is running, if one is (R148). -/
def TagEngine.runningStep (t : TagEngine) (p : Port) : Option TagJob :=
  match t.run with
  | none => none
  | some r =>
    if r.client = clientOf p then
      match r.job with
      | .chainOpen .. | .chainData .. | .chainClose .. => some r.job
      | .quickTag .. | .quickVerify .. | .unwrap .. => none
    else none

/-- Aborts a port's chain (R157, R158): at once, or, while a step of it runs, when that step ends (R148). A running CHAIN_CLOSE ends
the chain itself and no abort follows. -/
def Part.abortChain (s : Part) (p : Port) (event : Bool) : Part :=
  match s.te.runningStep p with
  | some (.chainClose _) => s
  | some _ =>
    { s with te := { s.te with run := s.te.run.map (fun r =>
        if r.abort = .no then { r with abort := if event then .event else .silent } else r) } }
  | none =>
    match s.te.context p with
    | none => s
    | some _ =>
      let s' := { s with te := s.te.dropContext p }
      if event then s'.raise p Events.addChainAbort else s'

/-- Whether a port's chain, open or being opened, is bound to a slot and a generation that satisfy a test (R158). -/
def Part.chainOn (s : Part) (p : Port) (f : Fin 16 → Nat → Bool) : Bool :=
  (match s.te.context p with
    | some c => f c.slot c.gen
    | none => false) ||
  (match s.te.runningStep p with
    | some (.chainOpen i g _ _ _) => f i g
    | some _ => false
    | none => false)

/-- Aborts every chain bound to a slot and generation that satisfy a test, with CHAIN_ABORT (R158). -/
def Part.abortChainsOn (s : Part) (f : Fin 16 → Nat → Bool) : Part :=
  let s1 := if s.chainOn .mp f then s.abortChain .mp true else s
  if s1.chainOn .np f then s1.abortChain .np true else s1

end Sys2Proof.Machine
end

