-- ==== Sys2Proof/Machine/Flags.lean ====
section
/-! DEFINITION. The port status word (R174, R185), the derived kinds of the event set (R180, R45), the attention lines (R183), and the
acknowledgement of a STATUS_READ reply (R181). -/

namespace Sys2Proof.Machine

/-! ### Derived kinds (R180) -/

/-- ADOPT_DUE: the slots in which the port's applied view names OUTGOING (R8, R180). -/
def Part.adoptDue (s : Part) (p : Port) : Word := maskOf (fun i => (s.slot i).applied.view p == some .outgoing)

/-- The window a port uses in a slot: the port is a user and its view names the window's generation (R45). -/
def Part.usedWindow (s : Part) (p : Port) (i : Fin 16) : Option Window :=
  let x := (s.slot i).applied
  if x.user p then
    match x.view p with
    | none => none
    | some v => match x.viewed v with
      | none => none
      | some g => s.window i g.num
  else none

/-- COUNTER_LOW (R45). -/
def Part.counterLow (s : Part) (p : Port) : Word :=
  maskOf (fun i => match s.usedWindow p i with
    | none => false
    | some w => decide (maxCounter - w.t < 1048576))

/-- EXHAUSTED (R45). -/
def Part.exhaustedMask (s : Part) (p : Port) : Word :=
  maskOf (fun i => match s.usedWindow p i with
    | none => false
    | some w => w.exhausted)

/-- The bit of an event kind in a mask (R185). -/
def kindBit (n : Nat) (present : Bool) : Word := if present then (1 : Word) <<< n else 0

/-- The latched kinds present, as event kind bits (R185). -/
def Events.kinds (e : Events) : Word :=
  kindBit 0 e.reset.isSome ||| kindBit 1 e.forced.isSome ||| kindBit 2 e.store.isSome ||| kindBit 3 e.cellLost.isSome |||
  kindBit 4 e.tamper.isSome ||| kindBit 5 e.chainAbort ||| kindBit 6 e.envAbort ||| kindBit 7 e.link

/-- The kinds a port's event set can hold: all eleven, but that ENV_ABORT is the network port's alone (R180). -/
def heldKinds : Port → Word
  | .mp => 0x07BF
  | .np => 0x07FF

/-- The kinds present in a port's event set, latched and derived (R180). While the part is held in reset or in start-up the set is
empty (R92). -/
def Part.kinds (s : Part) (p : Port) : Word :=
  if s.running then
    ((s.port p).events.kinds ||| kindBit 8 (s.adoptDue p != 0) ||| kindBit 9 (s.counterLow p != 0)
      ||| kindBit 10 (s.exhaustedMask p != 0)) &&& heldKinds p
  else 0

/-- Whether the event set holds a kind the mask enables: ANY, and the port's attention line (R174, R183). -/
def Part.attention (s : Part) (p : Port) : Bool := s.kinds p &&& (s.port p).mask != 0

/-! ### The status word (R174, R185) -/

/-- The length of the ready reply, 0 when none is ready (R174). -/
def PortJob.len : PortJob → Nat
  | .ready r => r.words.length
  | .idle | .waiting _ => 0

/-- Whether a reply is ready: RDY (R174). -/
def PortJob.isReady : PortJob → Bool
  | .ready _ => true
  | .idle | .waiting _ => false

/-- Whether a command is in flight: INF (R174). -/
def PortJob.isWaiting : PortJob → Bool
  | .waiting _ => true
  | .idle | .ready _ => false

/-- The words of the ready reply. -/
def PortJob.reply : PortJob → List Word
  | .ready r => r.words
  | .idle | .waiting _ => []

/-- The port status word (R174, R185): during STARTING only STARTING, PFW and TAMP show (R92), and in reset the word is zero (R90). -/
def Part.statusWord (s : Part) (p : Port) : Word :=
  let x := s.port p
  match s.phase with
  | .held => 0
  | .replayed | .sampled => kindBit 12 true ||| kindBit 8 s.pfw ||| kindBit 7 s.tamp
  | .running =>
    kindBit 15 (s.attention p) ||| kindBit 14 x.job.isReady ||| kindBit 13 x.job.isWaiting ||| kindBit 11 x.ferr |||
    kindBit 10 x.busyref ||| kindBit 9 x.lost ||| kindBit 8 s.pfw ||| kindBit 7 s.tamp ||| BitVec.ofNat 16 x.job.len

/-- Clears FERR, BUSYREF and LOST (R174). -/
def PortState.clearFlags (x : PortState) : PortState := { x with ferr := false, busyref := false, lost := false }

/-! ### Acknowledgement (R181) -/

/-- What the reply made now would show (R181). -/
def shownOf (e : Events) (errors : Nat) : Shown :=
  { reset := e.reset.isSome, forced := e.forced, store := e.store, cellLost := e.cellLost, tamper := e.tamper,
    chainAbort := e.chainAbort, envAbort := e.envAbort, errors := errors }

/-- A latched mask loses the slots shown, and the kind leaves when its mask is empty (R181). DEDUCED (log entry 44): a shown slot that is
set again between the reply and its delivery is cleared with it, and so is a kind shown with an empty mask (TAMPER at an event that
zeroizes nothing) and set again so, although R181 closes with "never cleared unseen". -/
def ackMask (now shown : Option Word) : Option Word :=
  match shown, now with
  | none, n => n
  | some _, none => none
  | some m, some n => if n &&& ~~~m = 0 then none else some (n &&& ~~~m)

/-- The event set and frame-error count after the delivery of a STATUS_READ reply without PEEK (R181). -/
def PortState.acknowledge (x : PortState) (sh : Shown) : PortState :=
  let e := x.events
  let n := x.errors - sh.errors
  { x with
    errors := n,
    events := { e with
      reset := if sh.reset then none else e.reset,
      forced := ackMask e.forced sh.forced,
      store := if sh.store.isSome && e.store == sh.store then none else e.store,
      cellLost := ackMask e.cellLost sh.cellLost,
      tamper := ackMask e.tamper sh.tamper,
      chainAbort := if sh.chainAbort && !e.chainAbortNew then false else e.chainAbort,
      envAbort := if sh.envAbort && !e.envAbortNew then false else e.envAbort,
      link := if n = 0 then false else e.link } }

/-- The making of a STATUS_READ reply: later occurrences are new (R181). -/
def Events.seen (e : Events) : Events := { e with chainAbortNew := false, envAbortNew := false }

end Sys2Proof.Machine
end

