-- ==== Sys2Proof/WellFormed.lean ====
section
/-! DEFINITION. Which commands the links and the timebase can present. A frame's body is 0 to 38 words (R176, R185): a longer body
is a frame error by its word count, and `exec` treats it so; it is ill-formed as a command. Slot and port numbers are ill-formed
by type. -/

namespace Sys2Proof

/-- The longest body of a frame, in words (R176). -/
def maxBody : Nat := 38

/-- The body of a port command, where the row has one. -/
def Instr.body? : Instr → Option (List Word)
  | .nop _ b | .statusRead _ b | .setMask _ b | .slotInfo _ b | .storeInfo _ b => some b
  | .quickTag _ b | .quickVerify _ b | .chainOpen _ b | .chainData _ b | .chainClose _ b | .chainDrop _ b => some b
  | .envOpen _ b | .envData _ b | .envClose _ b | .envDrop _ b | .activate _ b | .adopt _ b => some b
  | .setIdentity _ b | .loadPlain _ b | .unload _ b | .seal _ b => some b
  | .selectAsserted _ | .transferJudged _ _ | .portRestart _ => none
  | .powerOnReset _ | .pinReset _ | .startUp | .startUpTamperSample _ | .leaveStarting => none
  | .pfwAsserted | .pfwReleased | .tampLineChange _ | .tamperEvent _ | .coverClosed _ => none
  | .graceCountdownTick | .graceExpiry _ | .chainInactivity _ _ | .envFillTimeout _ | .sealWindowExpiry _ => none
  | .peTakeJob | .recordProgramDone _ | .carryForwardDone _ | .headerProgramDone _ _ | .pageEraseDone _ => none
  | .cellProgramDone _ | .cellEraseDone _ | .teTakeJob | .teJobDone => none

/-- A command is well-formed when its body, if it has one, is at most 38 words (R176). -/
def Instr.wf (i : Instr) : Bool :=
  match i.body? with
  | some b => decide (b.length ≤ maxBody)
  | none => true

end Sys2Proof
end

