-- ==== Sys2Proof/Machine/Frames.lean ====
section
/-! DEFINITION. Frames (R176, R184, R185): header word, body of 0 to 38 words, check word. -/

namespace Sys2Proof.Machine

/-- The frame header: command code, body length, two reserved zero bits (R185). -/
def frameHeader (c : Cmd) (n : Nat) : Word := pair c.code (BitVec.ofNat 8 (4 * n))

/-- The frame check word over the header and the body (R184). -/
def frameCheck (w : List Word) : Word := crc 0xFFFF (wordBytes w)

/-- The frame that carries a command (R176). -/
def encodeFrame (c : Cmd) (body : List Word) : List Word :=
  (frameHeader c body.length :: body) ++ [frameCheck (frameHeader c body.length :: body)]

/-- The command and body of a frame, none on a frame error (R176). -/
def decodeFrame (words : List Word) : Option (Cmd × List Word) :=
  match words with
  | [] => none
  | h :: rest =>
    let low := (loByte h).toNat
    let n := low / 4
    if low % 4 = 0 ∧ n ≤ maxBody ∧ rest.length = n + 1 ∧ rest.drop n = [frameCheck (h :: rest.take n)] then
      (cmdOfCode (hiByte h)).map (fun c => (c, rest.take n))
    else none

end Sys2Proof.Machine
end

