-- ==== Sys2Proof/Machine/Cipher.lean ====
section
/-! DEFINITION. The cipher core (R144): E(k, x) is AES-128 as published, in its encryption direction, and the tag function built on
it. The cipher's table and steps are the published ones (FIPS 197); spec/ names the cipher and does not print it (log entry 11). -/

namespace Sys2Proof.Machine

/-- The rows of the cipher's published substitution table, each sixteen bytes from column 0 to column 15. -/
def sboxRow (r : Nat) : Nat :=
  match r with
  | 0 => 0x637c777bf26b6fc53001672bfed7ab76
  | 1 => 0xca82c97dfa5947f0add4a2af9ca472c0
  | 2 => 0xb7fd9326363ff7cc34a5e5f171d83115
  | 3 => 0x04c723c31896059a071280e2eb27b275
  | 4 => 0x09832c1a1b6e5aa0523bd6b329e32f84
  | 5 => 0x53d100ed20fcb15b6acbbe394a4c58cf
  | 6 => 0xd0efaafb434d338545f9027f503c9fa8
  | 7 => 0x51a3408f929d38f5bcb6da2110fff3d2
  | 8 => 0xcd0c13ec5f974417c4a77e3d645d1973
  | 9 => 0x60814fdc222a908846eeb814de5e0bdb
  | 10 => 0xe0323a0a4906245cc2d3ac629195e479
  | 11 => 0xe7c8376d8dd54ea96c56f4ea657aae08
  | 12 => 0xba78252e1ca6b4c6e8dd741f4bbd8b8a
  | 13 => 0x703eb5664803f60e613557b986c11d9e
  | 14 => 0xe1f8981169d98e949b1e87e9ce5528df
  | _ => 0x8ca1890dbfe6426841992d0fb054bb16

/-- The substitution of one byte. -/
def subByte (b : Byte) : Byte :=
  BitVec.ofNat 8 (sboxRow (b.toNat / 16) / 256 ^ (15 - b.toNat % 16))

/-- Multiplication by x in the cipher's field. -/
def xtime (b : Byte) : Byte := if b.msb then (b <<< 1) ^^^ 0x1B else b <<< 1

/-- Row shift of a state held column by column. -/
def shiftRows : List Byte → List Byte
  | [a0, a1, a2, a3, b0, b1, b2, b3, c0, c1, c2, c3, d0, d1, d2, d3] =>
    [a0, b1, c2, d3, b0, c1, d2, a3, c0, d1, a2, b3, d0, a1, b2, c3]
  | s => s

/-- One column of the column mix. -/
def mixColumn (a b c d : Byte) : List Byte :=
  [xtime a ^^^ (xtime b ^^^ b) ^^^ c ^^^ d, a ^^^ xtime b ^^^ (xtime c ^^^ c) ^^^ d,
   a ^^^ b ^^^ xtime c ^^^ (xtime d ^^^ d), (xtime a ^^^ a) ^^^ b ^^^ c ^^^ xtime d]

/-- The column mix of a state. -/
def mixColumns : List Byte → List Byte
  | a :: b :: c :: d :: rest => mixColumn a b c d ++ mixColumns rest
  | _ => []

/-- Byte-wise exclusive or. -/
def xorBytes (a b : List Byte) : List Byte := List.zipWith (· ^^^ ·) a b

/-- The next round key, from the last one and the round constant. -/
def nextRoundKey (rcon : Byte) (k : List Byte) : List Byte :=
  match k with
  | [a0, a1, a2, a3, b0, b1, b2, b3, c0, c1, c2, c3, d0, d1, d2, d3] =>
    let w0 := xorBytes [a0, a1, a2, a3] [subByte d1 ^^^ rcon, subByte d2, subByte d3, subByte d0]
    let w1 := xorBytes [b0, b1, b2, b3] w0
    let w2 := xorBytes [c0, c1, c2, c3] w1
    let w3 := xorBytes [d0, d1, d2, d3] w2
    w0 ++ w1 ++ w2 ++ w3
  | k => k

/-- The rounds after the first key addition: nine full rounds and the last without the column mix. -/
def cipherRounds : List Byte → List Byte → List Byte → List Byte
  | [], _, s => s
  | rcon :: rest, k, s =>
    let k' := nextRoundKey rcon k
    let t := shiftRows (s.map subByte)
    let t' := match rest with
      | [] => t
      | _ => mixColumns t
    cipherRounds rest k' (xorBytes t' k')

/-- E(k, x) (R144). -/
def encipher (k : Key) (x : Block) : Block :=
  let kb := bytesOf 16 k
  BitVec.ofNat 128 (ofBytes
    (cipherRounds [0x01, 0x02, 0x04, 0x08, 0x10, 0x20, 0x40, 0x80, 0x1B, 0x36] kb (xorBytes (bytesOf 16 x) kb)))

/-- The block whose bytes are given, zero bytes filling it up. -/
def blockOf (b : List Byte) : Block := BitVec.ofNat 128 (ofBytes ((b ++ List.replicate (16 - b.length) 0).take 16))

/-- Block 0 of the tag function (R144, step 1). -/
def tagBlock0 (counter n slot gen : Nat) : Block :=
  blockOf (toBytes 4 counter ++ toBytes 2 n ++ toBytes 1 slot ++ toBytes 1 gen)

/-- One enciphered block of the chain (R144, step 4). -/
def absorb (k : Key) (x : Block) (m : List Byte) : Block := encipher k (x ^^^ blockOf m)

/-- The whole blocks of `part`, enciphered in order, and the bytes left over (R154); `fuel` bounds the blocks. -/
def absorbFull (k : Key) : Nat → Block → List Byte → Block × List Byte
  | 0, x, part => (x, part)
  | fuel + 1, x, part =>
    if 16 ≤ part.length then absorbFull k fuel (absorb k x (part.take 16)) (part.drop 16) else (x, part)

/-- The last step: the partial block padded with 80h and zero bytes (R144, step 3; R155). -/
def absorbLast (k : Key) (x : Block) (part : List Byte) : Block := absorb k x (part ++ [0x80])

/-- The first 8 bytes of a block. -/
def firstHalf (x : Block) : Tag := x.extractLsb' 64 64

/-- The tag over a message (R144). -/
def tagOf (k : Key) (counter slot gen : Nat) (m : List Byte) : Tag :=
  let x0 := encipher k (tagBlock0 counter m.length slot gen)
  let r := absorbFull k (m.length / 16) x0 m
  firstHalf (absorbLast k r.1 r.2)

/-- The block H of the unwrap relation (R119). -/
def unwrapH (slot gen : Nat) (id : Ident) (labelLength : Nat) (last : Byte) : Block :=
  blockOf (toBytes 1 slot ++ toBytes 2 gen ++ bytesOf 8 id ++ toBytes 1 labelLength ++ [0, 0, 0, last])

end Sys2Proof.Machine
end

