-- ==== Sys2Proof/Machine/Counters.lean ====
section
/-! DEFINITION. The counter unit (chapter 2): windows, issuing, reservations, strides, grants, abandonment, closed windows. -/

namespace Sys2Proof.Machine

/-! ### Wants and placing (R30, R31) -/

/-- The want condition (R30). -/
def Window.wants (w : Window) (x : Slot) : Bool :=
  x.applied.issues w.gen && !w.exhausted && decide (4 * (w.p - w.t) ≤ w.sCur) && decide (w.p < maxCounter) &&
  decide (w.reservation = .none) && !x.zeroizing

/-- Places a wanted reservation as a class-2 CEIL job, unless PFW is asserted or the store is FAILED (R31). -/
def Part.placeWanted (s : Part) (i : Fin 16) (g : Nat) : Part :=
  match s.window i g with
  | none => s
  | some w =>
    if w.reservation = .wanted ∧ s.pfw = false ∧ s.mode ≠ .failed ∧ (s.slot i).zeroizing = false then
      (s.modWindow i g (fun w => { w with reservation := .queued })).place (.ceil i g) 2 .counterUnit []
    else s

/-- Tests the want condition of a window and places the reservation (R30, R31). -/
def Part.wantTest (s : Part) (i : Fin 16) (g : Nat) : Part :=
  match s.window i g with
  | none => s
  | some w =>
    if w.wants (s.slot i) then (s.modWindow i g (fun w => { w with reservation := .wanted })).placeWanted i g else s

/-- The release of the power-fail warning and the end of start-up: the condition is tested for every issuing window (R30) and every wanted
reservation is placed, in slot order, CURRENT before OUTGOING (R31, R88, R106). -/
def Part.placeAllWanted (s : Part) : Part :=
  allSlots.foldl (fun s i =>
    ((s.slot i).applied.issuing).foldl (fun s x => (s.wantTest i x.2.num).placeWanted i x.2.num) s) s

/-! ### The stride (R32 to R35) -/

/-- The smallest power of two that is at least `n` (R34); `fuel` bounds the doubling. -/
def powerAtLeast (n : Nat) : Nat → Nat → Nat
  | 0, r => r
  | fuel + 1, r => if n ≤ r then r else powerAtLeast n fuel (2 * r)

/-- Stage 1, demand (R33). -/
def demand (rateKnown : Bool) (c delta sCur : Nat) : Nat :=
  if rateKnown then (c * 120 + (max delta 1 - 1)) / max delta 1 else sCur

/-- Stages 2 to 4: power of two, rate limit, floor (R34). -/
def limited (q sCur smin : Nat) : Nat :=
  max (min (max (powerAtLeast (max q 1) 64 1) (sCur / 4)) (sCur * 4)) smin

/-- Stages 5 and 6: wear and cap (R35). -/
def capped (r wear : Nat) (mode : StoreMode) : Nat :=
  if mode = .degraded then 65536 else min (r * 2 ^ wear) 65536

/-- The stride S of a reservation taken now (R32 to R35). -/
def Window.stride (w : Window) (now : Count) (smin wear : Nat) (mode : StoreMode) : Nat :=
  capped (limited (demand w.rateKnown (w.t - w.grantCounter) (elapsed w.grantTime now) w.sCur) w.sCur smin) wear mode

/-- Stage 7: the new ceiling (R35). -/
def newCeiling (p stride : Nat) : Nat := min (p + stride) maxCounter

/-! ### Issuing (R27, R44) -/

/-- The value after T is issued: T rises by 1, and the window is exhausted when T reaches 4,294,967,295 (R27, R44). -/
def Window.issue (w : Window) : Window :=
  { w with t := w.t + 1, exhausted := w.exhausted || decide (w.t + 1 = maxCounter) }

/-- The command a held request is. -/
def HeldRequest.cmd : HeldRequest → Cmd
  | .quick _ => .quickTag
  | .chain _ => .chainOpen

/-- The job a TAG request with its counter value places (R149, R152). -/
def HeldRequest.job (r : HeldRequest) (i : Fin 16) (g counter : Nat) : TagJob :=
  match r with
  | .quick m => .quickTag i g counter m
  | .chain n => .chainOpen i g .tag counter n

/-- A TAG request takes its value and goes to the tag engine (R27); a condemned one's value is consumed and no job is placed (R159). -/
def Part.issueTo (s : Part) (i : Fin 16) (g counter : Nat) (h : Held) : Part :=
  let s' := s.modWindow i g Window.issue
  if h.waiter.condemned then s' else s'.placeTag (clientOf h.waiter.port) (h.request.job i g counter)

/-- Refuses a held request. -/
def Part.refuseHeld (s : Part) (h : Held) (r : Code) : Part := s.refuse h.waiter h.request.cmd r

/-- Refuses requests in arrival order. -/
def Part.refuseAllHeld (s : Part) (hs : List Held) (r : Code) : Part := hs.foldl (fun s h => s.refuseHeld h r) s

/-- A TAG request that has passed the key checks reaches the counter unit: issued, held or refused (R27, R40, R44). -/
def Part.tagRequest (s : Part) (p : Port) (i : Fin 16) (g : Nat) (r : HeldRequest) : Part :=
  let h : Held := { waiter := { port := p, condemned := false }, request := r }
  match s.window i g with
  | none => s.refuseHeld h .noGen
  | some w =>
    if w.exhausted ∨ maxCounter ≤ w.t then s.refuseHeld h .exhausted
    else if w.t < w.p then (s.issueTo i g w.t h).wantTest i g
    else if w.held.any (fun x => x.waiter.port = p) then s.refuseHeld h .windowClosed
    else if w.reservation = .inFlight ∨ (w.reservation = .queued ∧ s.pfw = false) then
      s.modWindow i g (fun w => { w with held := w.held ++ [h] })
    else s.refuseHeld h .windowClosed

/-! ### Grant and abandonment (R37, R38) -/

/-- Serves held requests in arrival order (R37, step 4). -/
def Part.serveHeld (s : Part) (i : Fin 16) (g : Nat) : List Held → Part
  | [] => s
  | h :: rest =>
    match s.window i g with
    | none => s
    | some w =>
      (if w.t < w.p ∧ w.exhausted = false then s.issueTo i g w.t h else s.refuseHeld h .exhausted).serveHeld i g rest

/-- The window after steps 1 to 3 of a grant, its held requests taken off to be served (R37). -/
def Window.granted (w : Window) (ceiling stride : Nat) (now : Count) : Window :=
  { w with p := ceiling, sCur := stride, grantTime := now, grantCounter := w.t, rateKnown := true, reservation := .none,
           held := [] }

/-- The grant of a verified reservation (R37). A discarded window takes none. -/
def Part.grant (s : Part) (i : Fin 16) (g ceiling stride : Nat) : Part :=
  match s.window i g with
  | none => s
  | some w =>
    ((s.modWindow i g (fun w => w.granted ceiling stride s.sec)).serveHeld i g w.held).wantTest i g

/-- A reservation abandoned because the store has become FAILED (R38). -/
def Part.abandon (s : Part) (i : Fin 16) (g : Nat) : Part :=
  match s.window i g with
  | none => s
  | some w =>
    (s.modWindow i g (fun w => { w with reservation := .wanted, held := [] })).refuseAllHeld w.held .windowClosed

/-- PFW with this window's reservation queued: its held requests are refused with WINDOW_CLOSED (R42). -/
def Part.refuseQueued (s : Part) (w : Window) : Part :=
  if w.reservation = .queued then
    (s.modWindow w.slot w.gen (fun w => { w with held := [] })).refuseAllHeld w.held .windowClosed
  else s

/-- R42 for every window. -/
def Part.refuseQueuedHeld (s : Part) : Part := s.windows.foldl (fun s w => s.refuseQueued w) s

/-! ### Windows opened, discarded, and in a ZEROIZING slot (R26, R31, R43) -/

/-- A window as a verified SLOT record opens it (R26): P is 1 + S_min, held as every P is to the largest counter (R28), which no S_min
of R4 comes near. -/
def freshWindow (i : Fin 16) (g smin : Nat) (now : Count) : Window :=
  { slot := i, gen := g, t := 1, p := newCeiling 1 smin, sCur := smin, grantTime := now, grantCounter := 1, rateKnown := false,
    exhausted := false, reservation := .none, held := [] }

/-- Opens a window (R26). -/
def Part.openWindow (s : Part) (i : Fin 16) (g smin : Nat) : Part :=
  { s with windows := s.windows ++ [freshWindow i g smin s.sec] }

/-- Discards a window: its queued reservation leaves the list and its held requests are refused with NO_GEN (R26, R43). -/
def Part.discardWindow (s : Part) (i : Fin 16) (g : Nat) : Part :=
  match s.window i g with
  | none => s
  | some w =>
    let s1 := { s with windows := s.windows.filter (fun x => !(x.slot == i && x.gen == g)) }
    let s2 := if w.reservation = .queued then s1.unplace (.ceil i g) else s1
    s2.refuseAllHeld w.held .noGen

/-- The effect on one window of its slot's entry into ZEROIZING: held requests refused with SLOT_STATE (R43), a queued or wanted
reservation returned to none (R30, R31). -/
def Part.zeroizeWindow (s : Part) (w : Window) : Part :=
  let keep := decide (w.reservation = .inFlight)
  let s1 := s.modWindow w.slot w.gen
    (fun w => { w with held := [], reservation := if keep then .inFlight else .none })
  (if w.reservation = .queued then s1.unplace (.ceil w.slot w.gen) else s1).refuseAllHeld w.held .slotState

/-- R31 and R43 for every window of a slot that enters ZEROIZING. -/
def Part.zeroizeWindows (s : Part) (i : Fin 16) : Part :=
  (s.windows.filter (fun w => w.slot = i)).foldl (fun s w => s.zeroizeWindow w) s

end Sys2Proof.Machine
end

