-- ==== Sys2Proof/Machine/Operands.lean ====
section
/-! DEFINITION. The operand forms of the command bodies (R186) and of the envelope (R187). Each reader answers none where the form
check of the command fails: a wrong length, a reserved bit or byte that is set, or a value outside its form. -/

namespace Sys2Proof.Machine

/-- A slot number alone in a word: upper byte, lower byte reserved (R186). SLOT_INFO and UNLOAD. -/
def argSlot : List Word → Option Nat
  | [w] => if loByte w = 0 then some (hiByte w).toNat else none
  | _ => none

/-- A slot and a generation (R186). ACTIVATE and ADOPT. -/
def argSlotGen : List Word → Option (Nat × Nat)
  | [w, g] => if loByte w = 0 then some ((hiByte w).toNat, g.toNat) else none
  | _ => none

/-- The PEEK flag of STATUS_READ (R181, R186). -/
def argPeek : List Word → Option Bool
  | [w] => if w.toNat < 2 then some (w = 1) else none
  | _ => none

/-- The mask of SET_MASK, its reserved bits clear (R182, R185). -/
def argMask : List Word → Option Word
  | [w] => if w.toNat < 2048 then some w else none
  | _ => none

/-- A message of `n` bytes carried in exactly ceiling(n ÷ 2) words, upper byte first; for an odd `n` the lower half of the last word is
ignored, as R149 says of QUICK_TAG and R110 of ENV_DATA. -/
def argMessage (n : Nat) (w : List Word) : Option (List Byte) :=
  if w.length = (n + 1) / 2 then some ((wordBytes w).take n) else none

/-- Slot and message of QUICK_TAG (R149). -/
def argQuickTag : List Word → Option (Nat × List Byte)
  | w :: rest =>
    if (loByte w).toNat ≤ 64 then (argMessage (loByte w).toNat rest).map (fun m => ((hiByte w).toNat, m)) else none
  | [] => none

/-- Slot, generation, counter, tag and message of QUICK_VERIFY (R150). R150 does not say what the lower half of the last message word
does when n is odd: it is ignored as in QUICK_TAG, DEDUCED (log entry 48). -/
def argQuickVerify : List Word → Option (Nat × Nat × Nat × Tag × List Byte)
  | w :: g :: c1 :: c0 :: t3 :: t2 :: t1 :: t0 :: rest =>
    if (loByte w).toNat ≤ 60 then
      (argMessage (loByte w).toNat rest).map
        (fun m => ((hiByte w).toNat, g.toNat, ofWords [c1, c0], t3 ++ t2 ++ t1 ++ t0, m))
    else none
  | _ => none

/-- Slot, mode, declared length, generation and counter of CHAIN_OPEN; generation and counter 0 in TAG mode (R152). -/
def argChainOpen : List Word → Option (Nat × ChainMode × Nat × Nat × Nat)
  | [w, n] => if loByte w = 1 ∧ n.toNat ≤ 4096 then some ((hiByte w).toNat, .tag, n.toNat, 0, 0) else none
  | [w, n, g, c1, c0] =>
    if loByte w = 2 ∧ n.toNat ≤ 4096 then some ((hiByte w).toNat, .verify, n.toNat, g.toNat, ofWords [c1, c0]) else none
  | _ => none

/-- The tag of CHAIN_CLOSE: none in TAG mode, four words in VERIFY mode (R155). -/
def argChainClose (m : ChainMode) (body : List Word) : Option (Option Tag) :=
  match m, body with
  | .tag, [] => some none
  | .verify, [t3, t2, t1, t0] => some (some (t3 ++ t2 ++ t1 ++ t0))
  | _, _ => none

/-- The bytes of ENV_DATA: a count from 1 to 74 and exactly ceiling(count ÷ 2) words (R110). -/
def argEnvData : List Word → Option (List Byte)
  | c :: rest => if 1 ≤ c.toNat ∧ c.toNat ≤ 74 then argMessage c.toNat rest else none
  | [] => none

/-- The identity of SET_IDENTITY (R163, R186). -/
def argIdentity : List Word → Option Ident
  | [a, b, c, d] => some (a ++ b ++ c ++ d)
  | _ => none

/-- Whether bytes are a label in extendable form: each but the last with its top bit set, the last with it clear (R115). -/
def labelForm : List Byte → Bool
  | [] => false
  | [b] => !b.msb
  | b :: rest => b.msb && labelForm rest

/-- Whether a number is one of the strides a slot can have as S_min (R1). -/
def sminForm (n : Nat) : Bool := n = 2 ^ n.log2 ∧ 16 ≤ n ∧ n ≤ 4096

/-- Raised to 60 seconds if below (R124, R164). -/
def clampGrace (n : Nat) : Nat := max n 60

/-- Slot, attributes and key of LOAD_PLAIN, where check 1 of R164 passes; the grace clamped. Unused label bytes are zero (R186). -/
def argLoad : List Word → Option (Fin 16 × Attrs × Key)
  | w :: x :: smin :: grace :: ll :: l2 :: l1 :: l0 :: key =>
    let n := (hiByte ll).toNat
    let bytes := wordBytes [l2, l1, l0]
    let label := bytes.take n
    match slotOf? (hiByte w).toNat, classOfCode (loByte w), slotOf? (hiByte x).toNat with
    | some s, some c, some t =>
      if key.length = 8 ∧ (loByte x).toNat < 2 ∧ loByte ll = 0 ∧ 1 ≤ n ∧ n ≤ 6 ∧ labelForm label ∧
          bytes.drop n = List.replicate (6 - n) 0 ∧ sminForm smin.toNat then
        some (s, { cls := c, erase := loByte x = 1, tslot := t, smin := smin.toNat, label := label,
                   grace := clampGrace grace.toNat },
              BitVec.ofNat 128 (ofWords key))
      else none
    | _, _, _ => none
  | _ => none

/-- The length of the label that starts a byte string: the place of the first byte whose top bit is clear, within 6 bytes (R115). -/
def labelLength (b : List Byte) : Option Nat := ((b.take 6).findIdx? (fun x => !x.msb)).map (· + 1)

/-- The envelope kind a code names (R185). -/
def envKindOf (b : Byte) : Option EnvKind := if b = 1 then some .renew else if b = 2 then some .cancel else none

/-- The expected-state part (R122, R187). -/
def expectedOf (b : List Byte) : Expected :=
  { pending := field2 b 0, current := field2 b 2, outgoing := field2 b 4, highest := field2 b 6 }

/-- The fields of an envelope, where check 1 of R116 passes; the grace as carried. -/
def parseEnvelope (b : List Byte) : Option Envelope :=
  if 62 ≤ b.length ∧ b.length ≤ 75 then
    match labelLength (b.drop 27), envKindOf (b.getD 0 0), slotOf? (b.getD 17 0).toNat, classOfCode (b.getD 18 0),
        slotOf? (b.getD 19 0).toNat with
    | some n, some kind, some slot, some cls, some tslot =>
      if b.length = 61 + n ∨ b.length = 69 + n then
        let e := b.length - 61 - n
        let at_ := 27 + n + e
        let mode := b.getD 24 0
        let bField := (b.drop at_).take 16
        let formed : Bool := match kind with
          | .renew => mode == 1 || mode == 2
          | .cancel => mode == 0 && field2 b 25 == 0 && bField == List.replicate 16 0
        if 1 ≤ field2 b 20 ∧ 1 ≤ field2 b 22 ∧ formed = true then
          some { kind := kind, destination := (b.drop 1).take 8, reference := (b.drop 9).take 8, slot := slot, cls := cls,
                 tslot := tslot, tgen := field2 b 20, gen := field2 b 22, immediate := mode = 1, grace := field2 b 25,
                 label := (b.drop 27).take n, expected := if e = 8 then some (expectedOf (b.drop (27 + n))) else none,
                 b := BitVec.ofNat 128 (ofBytes bField), v := BitVec.ofNat 64 (ofBytes ((b.drop (at_ + 16)).take 8)),
                 a := BitVec.ofNat 64 (ofBytes ((b.drop (at_ + 24)).take 8)), covered := b.take (at_ + 24) }
        else none
      else none
    | _, _, _, _, _ => none
  else none

/-- Check 2 of R116: the check word over every byte before it. -/
def envelopeCheck (b : List Byte) : Bool :=
  b.drop (b.length - 2) == wordPair (crc 0xFFFF (b.take (b.length - 2)))

end Sys2Proof.Machine
end

