-- ==== Sys2Proof/Machine/KeyStore.lean ====
section
/-! DEFINITION. The key store controller's shared operations: the checks before a key is used (R19 to R22), the envelope's slot checks
(R118, R120 to R122), awaiting changes, commits that stop, and withdrawal (R14 to R18, R83). -/

namespace Sys2Proof.Machine

/-! ### Using a key (R19 to R22) -/

/-- Checks 2 to 5 of R19 after a slot number in range: the generation to use, or the refusal. `named` is the generation a VERIFY
names, 0 for none; a TAG names none (R20). A ZEROIZING slot without a class has no users and gives RIGHTS (log entry 52). -/
def Part.useKey (s : Part) (p : Port) (i : Fin 16) (named : Nat) : Except Code Nat :=
  let x := s.slot i
  if s.lifecycle = .blank then .error .lifecycle
  else if x.applied.user p = false then .error .rights
  else if x.state.holds = false then .error .slotState
  else if named ≠ 0 then (if x.applied.holdsUsable named then .ok named else .error .noGen)
  else match x.applied.view p with
    | none => .error .noGen
    | some v => match x.applied.viewed v with
      | none => .error .noGen
      | some g => .ok g.num

/-- The checks of R19 with the slot number as carried: the slot and generation to use, or the refusal. -/
def Part.checkUse (s : Part) (p : Port) (slot named : Nat) : Except Code (Fin 16 × Nat) :=
  match slotOf? slot with
  | none => .error .badArg
  | some i => match s.useKey p i named with
    | .error r => .error r
    | .ok g => .ok (i, g)

/-- The refusal of a job whose check at its start fails (R21): SLOT_STATE for a ZEROIZING, EMPTY or UNUSED slot, else NO_GEN. -/
def Slot.goneCode (x : Slot) : Code := if x.state.holds then .noGen else .slotState

/-- The cell of a generation number held as CURRENT or OUTGOING. -/
def Pers.usableCell (p : Pers) (n : Nat) : Option (Fin 48) :=
  ((p.current.toList ++ p.outgoing.toList).find? (fun g => g.num == n)).map Gen.cell

/-- The check at a job's start, with the key read from the generation's cell (R21). `user` is the port for TAG and VERIFY. -/
def Part.keyFor (s : Part) (i : Fin 16) (g : Nat) (user : Option Port) : Option Key :=
  let x := s.slot i
  let userOk : Bool := match user with
    | none => true
    | some p => x.applied.user p
  if x.zeroizing = false ∧ x.applied.holdsUsable g ∧ userOk = true then
    match x.applied.usableCell g with
    | none => none
    | some c => s.keyIn c
  else none

/-- The transport key check (R22), made against the applied state. -/
def Part.transportOk (s : Part) (i : Fin 16) (g : Nat) : Bool :=
  (s.slot i).state.holds && (s.slot i).applied.holdsUsable g

/-! ### Envelope checks against slots (R117, R118, R120 to R122) -/

/-- Check 3 (R117). -/
def destinationOk (d : List Byte) (id : Option Ident) : Bool :=
  d == List.replicate 8 0xFF ||
  (match id with
    | none => false
    | some x =>
      d == bytesOf 8 x || (d.take 4 == (bytesOf 8 x).take 4 && d.drop 4 == List.replicate 4 0xFF))

/-- Check 5 (R118): `x` is the projected state of the envelope's slot, `t` that of its transport slot. -/
def slotCheck (x t : Pers) (zeroizing : Bool) (e : Envelope) : Bool :=
  match x.attrs with
  | none => false
  | some a =>
    !zeroizing && a.cls == e.cls && a.tslot == e.tslot && t.cls == some .transport && a.label == e.label

/-- The expected-state part matches, or is absent (R122). -/
def expectedOk (x : Pers) (e : Envelope) : Bool :=
  match e.expected with
  | none => true
  | some w =>
    w.pending == genNumber x.pending && w.current == genNumber x.current && w.outgoing == genNumber x.outgoing &&
    w.highest == x.highest

/-- Checks 8 to 10 of a RENEW (R120). -/
def renewSlotChecks (x : Pers) (e : Envelope) : Option Code :=
  if ¬ (x.highest < e.gen ∧ expectedOk x e) then some .envStale
  else if x.pending.isSome then some .envPending
  else if e.immediate ∧ x.state.inSwitch then some .envSwitching
  else none

/-- Check 8 of a CANCEL (R121). -/
def cancelSlotCheck (x : Pers) (e : Envelope) : Option Code :=
  if isGen x.pending e.gen ∧ expectedOk x e then none else some .envNoPending

/-- Checks 3 to 5 of a LOAD_PLAIN against a projected state (R164). An EMPTY slot's attributes must be those the command carries,
its grace apart. -/
def loadSlotChecks (x : Pers) (zeroizing : Bool) (a : Attrs) : Option Code :=
  if zeroizing ∨ ¬ (x.state = .unused ∨ x.state = .empty) then some .slotState
  else if (match x.attrs with
      | none => false
      | some h => h != { a with grace := h.grace }) then some .badArg
  else if 65535 ≤ x.highest then some .noGen
  else none

/-- Check 5 against the part's projected states (R118). -/
def Part.slotCheckNow (s : Part) (e : Envelope) : Bool :=
  slotCheck (s.projected e.slot) (s.projected e.tslot) (s.slot e.slot).zeroizing e

/-! ### The verdict (R114) -/

/-- The items of a verdict: kind, slot, generation and reference are absent for ENV_FORM and ENV_CHECK (R114). The envelope kind is a
byte, paired with the bytes held: log entry 27. -/
def verdictItems (bytes : List Byte) (v : Code) : List ReplyItem :=
  match (if v = .envForm ∨ v = .envCheck then none else parseEnvelope bytes) with
  | none => [.byte (BitVec.ofNat 8 bytes.length), .byte 0, .byte 0, word1 0, .words [0, 0, 0, 0]]
  | some e =>
    [.byte (BitVec.ofNat 8 bytes.length), .byte e.kind.code, .byte (BitVec.ofNat 8 e.slot.val), word1 e.gen,
     .words (packBytes e.reference)]

/-- The checks end in a failure or the commit ends: the verdict is the reply to ENV_CLOSE, or is discarded when a port restart has
condemned it, and the buffer is then FREE (R114). -/
def Part.giveVerdict (s : Part) (v : Code) : Part :=
  if s.receiver.condemned then { s with receiver := .blank }
  else
    { s with receiver := { s.receiver with state := .verdict, verdict := some v, cell := none } }.makeReady .np
      { words := replyWords v .envClose (verdictItems s.receiver.bytes v), maker := .verdict }

/-! ### Awaiting changes (R14, R15) -/

/-- Places a change on a slot's awaiting list, with its SLOT job (R14, R15). -/
def Part.accept (s : Part) (i : Fin 16) (c : Change) (cls : Nat) (r : Requester) (commits : List (Nat × Nat)) : Part :=
  (s.modSlot i (fun x => { x with awaiting := x.awaiting ++ [c] })).place (.slot i) cls r commits

/-- A change of a command, ready as soon as it is accepted (R15). -/
def commandChange (k : ChangeKind) (p : Port) : Change :=
  { kind := k, ready := true, taken := false, source := .command { port := p, condemned := false } }

/-- Places a grace expiry when the count stands at 0 and the projected state holds an OUTGOING generation (R14, R138); one expiry is
enough for a count that stands at 0. -/
def Part.expiryTest (s : Part) (i : Fin 16) : Part :=
  let x := s.slot i
  if x.graceLeft = some 0 ∧ x.zeroizing = false ∧ x.projected.outgoing.isSome ∧
      x.awaiting.all (fun c => decide (c.kind ≠ .expiry)) then
    s.accept i { kind := .expiry, ready := true, taken := false, source := .part } 4 .keyStore []
  else s

/-! ### Commits that stop (R83, R87) -/

/-- Takes a stopped commit's steps off the list. A SLOT job stays, no longer a step of the commit (R83). -/
def dropSteps (k : Nat) (l : List Job) : List Job :=
  (l.filter (fun j => !(j.commits.any (fun x => x.1 == k) &&
      (match j.id with
        | .cellProgram _ | .ceil _ _ => true
        | .slot _ | .life | .tamper | .pagebad _ | .carry _ _ | .pageErase _ | .header _ _ | .cellErase _ => false)))).map
    (fun j => { j with commits := j.commits.filter (fun x => x.1 != k) })

/-- A commit's record. -/
def Part.commit (s : Part) (k : Nat) : Option Commit := s.commits.find? (fun c => c.id == k)

/-- Updates a commit's record. -/
def Part.modCommit (s : Part) (k : Nat) (f : Commit → Commit) : Part :=
  { s with commits := s.commits.map (fun c => if c.id == k then f c else c) }

/-- A commit ends: its record leaves the engine (R84). -/
def Part.endCommit (s : Part) (k : Nat) : Part := { s with commits := s.commits.filter (fun c => c.id != k) }

/-- A commit stops: its steps not yet taken leave the list and its cell is released as an orphan (R52, R83). -/
def Part.stopCommit (s : Part) (k : Nat) : Part :=
  match s.commit k with
  | none => s
  | some c =>
    let s1 := { s with jobs := dropSteps k s.jobs }.endCommit k
    match c.cell with
    | none => s1
    | some x => s1.releaseCell x 5

/-! ### Withdrawal (R17) -/

/-- The refusal a withdrawn change's command receives, and the verdict a withdrawn envelope receives. -/
structure Why where
  command : Code
  envelope : Code
deriving DecidableEq, Repr

/-- POWER_LOW and ENV_POWER. -/
def whyPower : Why := { command := .powerLow, envelope := .envPower }

/-- STORE and ENV_STORE. -/
def whyStore : Why := { command := .store, envelope := .envStore }

/-- SLOT_STATE and ENV_TAMPER. -/
def whyTamper : Why := { command := .slotState, envelope := .envTamper }

/-- NO_CELL and ENV_NO_CELL. -/
def whyNoCell : Why := { command := .noCell, envelope := .envNoCell }

/-- The code for a change by its source. -/
def Why.code (w : Why) (c : Change) : Code :=
  match c.source with
  | .command _ => w.command
  | .envelope => w.envelope
  | .part => w.command

/-- A change leaves the list unapplied: its commit stops and its command or envelope is answered (R17). -/
def Part.dropChange (s : Part) (c : Change) (r : Code) : Part :=
  let s1 := match c.kind.commit? with
    | none => s
    | some k => s.stopCommit k
  match c.source with
  | .command w => s1.refuse w c.kind.cmd r
  | .envelope => s1.giveVerdict r
  | .part => s1

/-- A later change's own check, made again after a withdrawal against the recomputed state `p` (R17). An ACTIVATE whose PENDING
generation is gone fails with NO_GEN, as R17 and R130 state (log entry 20). -/
def Part.recheck (s : Part) (i : Fin 16) (p : Pers) (c : Change) : Option Code :=
  let z := (s.slot i).zeroizing
  match c.kind with
  | .load a _ _ _ => loadSlotChecks p z a
  | .unload => if z then some .slotState else none
  | .activate g =>
    if isGen p.pending g = false then some .noGen else if z ∨ p.state ≠ .staged then some .slotState else none
  | .adopt q g =>
    if p.user q = false then some .rights
    else if z ∨ p.state.holds = false then some .slotState
    else if isGen p.current g = false then some .noGen else none
  | .renew _ _ _ _ _ =>
    match parseEnvelope s.receiver.bytes with
    | none => none
    | some e =>
      let t := if e.tslot = i then p else s.projected e.tslot
      if slotCheck p t z e then renewSlotChecks p e else some .envSlot
  | .cancel _ _ =>
    match parseEnvelope s.receiver.bytes with
    | none => none
    | some e =>
      let t := if e.tslot = i then p else s.projected e.tslot
      if slotCheck p t z e then cancelSlotCheck p e else some .envSlot
  | .expiry | .zeroize | .correction => none

/-- Goes through an awaiting list in order: the changes that `sel` picks and that have not been taken are withdrawn with `why`; after
a withdrawal each later change not taken is checked again and withdrawn if it fails (R17). Answers the changes that stay. -/
def Part.withdrawLoop (i : Fin 16) (sel : Change → Bool) (why : Why) :
    List Change → Pers → Bool → Part → Part × List Change
  | [], _, _, s => (s, [])
  | c :: rest, p, gone, s =>
    let code :=
      if c.taken then none
      else if sel c then some (why.code c)
      else if gone then s.recheck i p c
      else none
    match code with
    | some r => Part.withdrawLoop i sel why rest p true (s.dropChange c r)
    | none =>
      let out := Part.withdrawLoop i sel why rest (p.fold c.kind) gone s
      (out.1, c :: out.2)

/-- Whether a withdrawal restored an OUTGOING generation to the projected state, from `before` to `after` (R138). -/
def restores (before after : Pers) : Bool :=
  after.outgoing.isSome && decide (genNumber before.outgoing ≠ genNumber after.outgoing)

/-- Whether the SLOT job of a slot leaves the list at a withdrawal that leaves `left` awaiting: the list empties (R83), or no change waits
for the job any more and it was the step of a commit that stops (R83) or of commands refused with POWER_LOW (R86). A job that a tamper event
leaves beside a record in flight stays, and the zeroize change joins it (R75, R76; log entry 35, DEDUCED). -/
def Part.slotJobLeaves (s : Part) (i : Fin 16) (why : Why) (left : List Change) : Bool :=
  decide (left.length < (s.slot i).awaiting.length) && left.all (fun c => c.taken) &&
    (left.isEmpty || why == whyPower || s.jobs.any (fun j => j.id == .slot i && !j.commits.isEmpty))

/-- Withdraws changes of a slot (R17), and takes its SLOT job off the list where nothing keeps it (R83, R86). A grace expiry is placed if
the withdrawal restored an OUTGOING generation at a count of 0 (R138). -/
def Part.withdraw (s : Part) (i : Fin 16) (sel : Change → Bool) (why : Why) : Part :=
  let out := Part.withdrawLoop i sel why (s.slot i).awaiting (s.slot i).applied false s
  let s1 := out.1.modSlot i (fun x => { x with awaiting := out.2 })
  let s2 := if s.slotJobLeaves i why out.2 then s1.unplace (.slot i) else s1
  if restores (s.projected i) (s2.projected i) then s2.expiryTest i else s2

/-! ### The lifecycle's changes (R161, R162) -/

/-- The projected lifecycle (R161). -/
def Part.projectedLife (s : Part) : Lifecycle :=
  match s.lifeChanges.getLast? with
  | none => s.lifecycle
  | some c => c.target

/-- The identity that a LIFE record composed now carries (R162). -/
def Part.projectedIdentity (s : Part) : Option Ident :=
  match s.lifeChanges.getLast? with
  | none => s.identity
  | some c => c.identity

/-- The command a LIFE change answers. -/
def LifeChange.cmd (c : LifeChange) : Cmd := if c.target = .sealed then .seal else .setIdentity

/-- Withdraws the LIFE changes not in a record in flight: the projected lifecycle returns and the commands are refused (R162). -/
def Part.withdrawLife (s : Part) (r : Code) : Part :=
  let out := s.lifeChanges.filter (fun c => !c.taken)
  (out.foldl (fun (s : Part) c => s.refuse c.waiter c.cmd r)
    { s with lifeChanges := s.lifeChanges.filter (fun c => c.taken) }).unplace .life

/-! ### The power-fail warning's effect on what waits (R42, R86, R87) -/

/-- Whether a change answers a command. -/
def Change.isCommand (c : Change) : Bool :=
  match c.source with
  | .command _ => true
  | .envelope | .part => false

/-- Commits whose SLOT record has not been taken stop (R87), then the waiting commands are refused with POWER_LOW (R86), a command that a
port restart has condemned among them (log entry 41), then the held requests on queued reservations are refused (R42). Commits come first:
an ACTIVATE behind a stopped RENEW is checked again and refused with NO_GEN (R17, log entry 20). Both go through the slots in slot order:
DESIGN CHOICE (log entry 45). -/
def Part.powerSweep (s : Part) : Part :=
  let s1 := allSlots.foldl (fun s i => s.withdraw i (fun c => c.kind.commit?.isSome) whyPower) s
  let s2 := allSlots.foldl (fun s i => s.withdraw i Change.isCommand whyPower) s1
  (s2.withdrawLife .powerLow).refuseQueuedHeld

end Sys2Proof.Machine
end

