-- ==== Sys2Proof/Machine/Journal.lean ====
section
/-! DEFINITION. The journal controller (chapter 3): facts and liveness, the ring, head switch and reclaim, bad pages, wear level, store
modes, and what becomes of jobs in a FAILED store. -/

namespace Sys2Proof.Machine

/-! ### Facts (R57, R58) -/

/-- Whether a fact still matters (R58). -/
def Part.matters (s : Part) : FactKey → Bool
  | .ceil i g => (s.cellOf i g).isSome
  | .slot _ | .life | .tamper | .pagebad _ => true

/-- The fact index entry that stands at a position: its record is the latest of its key (R57). -/
def Part.factAt (s : Part) (p : Fin 8) (i : Fin 31) : Option Fact := s.facts.find? (fun f => f.page == p && f.pos == i)

/-- Whether the record at a position is live (R58). -/
def Part.liveAt (s : Part) (p : Fin 8) (i : Fin 31) : Bool :=
  match s.factAt p i with
  | none => false
  | some f => s.matters f.key

/-- Whether a page holds a live record (R63, R65). -/
def Part.pageLive (s : Part) (p : Fin 8) : Bool := s.facts.any (fun f => f.page == p && s.matters f.key)

/-- The live records (R73). -/
def Part.liveCount (s : Part) : Nat := (s.facts.filter (fun f => s.matters f.key)).length

/-- Enters a verified record in the fact index (R57). -/
def Part.setFact (s : Part) (k : FactKey) (p : Fin 8) (i : Fin 31) (seq : Nat) : Part :=
  { s with facts := s.facts.filter (fun f => f.key != k) ++ [{ key := k, page := p, pos := i, seq := seq }] }

/-- A page's entries leave the fact index (R57). -/
def Part.dropFacts (s : Part) (p : Fin 8) : Part := { s with facts := s.facts.filter (fun f => f.page != p) }

/-! ### The page table (R54) -/

/-- The head, if there is one. -/
def Part.head (s : Part) : Option (Fin 8) := allPages.find? (fun p => (s.page p).role == .head)

/-- The spare, if there is one. -/
def Part.spare (s : Part) : Option (Fin 8) := allPages.find? (fun p => (s.page p).role == .spare)

/-- The lowest-numbered RESERVE page, if there is one. -/
def Part.reserve (s : Part) : Option (Fin 8) := allPages.find? (fun p => (s.page p).role == .reserve)

/-- Whether a role is usable (R54). -/
def PageRole.usable : PageRole → Bool
  | .spare | .reserve | .head | .closed => true
  | .retiring | .bad => false

/-- Whether a role is in the ring (R54). -/
def PageRole.inRing : PageRole → Bool
  | .head | .closed | .retiring => true
  | .spare | .reserve | .bad => false

/-- The number of usable pages (R54). -/
def Part.usable (s : Part) : Nat := (allPages.filter (fun p => (s.page p).role.usable)).length

/-- The number of pages in the ring (R54). -/
def Part.ringSize (s : Part) : Nat := (allPages.filter (fun p => (s.page p).role.inRing)).length

/-- A page's place in the ring: pages owed an erase first, then by page sequence number (R54, R93). -/
def Page.place (x : Page) : Nat := x.seq.getD 0

/-- The page of a list with the lowest place, the earlier one on a tie. -/
def lowestPlace (s : Part) : List (Fin 8) → Option (Fin 8)
  | [] => none
  | p :: rest =>
    match lowestPlace s rest with
    | none => some p
    | some q => if (s.page q).place < (s.page p).place then some q else some p

/-- The oldest page: the ring page at the old end, other than the head (R54). -/
def Part.oldest (s : Part) : Option (Fin 8) :=
  lowestPlace s (allPages.filter (fun p => (s.page p).role == .closed || (s.page p).role == .retiring))

/-- Whether the head has a free position (R53); no head has none. -/
def Part.headFree (s : Part) : Bool :=
  match s.head with
  | none => false
  | some p => decide ((s.page p).used < 31)

/-- The head's lowest free position (R53). -/
def Part.headPosition (s : Part) : Option (Fin 8 × Fin 31) :=
  match s.head with
  | none => none
  | some p => if h : (s.page p).used < 31 then some (p, ⟨(s.page p).used, h⟩) else none

/-- The wear level over the usable pages (R68). -/
def Part.wearLevel (s : Part) : Nat :=
  min ((allPages.filter (fun p => (s.page p).role.usable)).foldl (fun m p => max m (s.page p).erases) 0 / 25000) 3

/-- The store mode a number of usable pages gives (R69). -/
def modeOf (usable : Nat) : StoreMode := if 5 ≤ usable then .normal else if 3 ≤ usable then .degraded else .failed

/-- Whether a mode is lower than another (R70). -/
def StoreMode.below : StoreMode → StoreMode → Bool
  | .failed, .normal | .failed, .degraded | .degraded, .normal => true
  | .failed, .failed | .degraded, .failed | .degraded, .degraded | .normal, _ => false

/-! ### A FAILED store (R60, R70) -/

/-- A record job is reported to its requester as not writable, and leaves the list (R17, R38, R60). A grace expiry stays awaiting. -/
def Part.unwritable (s : Part) (j : Job) : Part :=
  let s1 := s.unplace j.id
  match j.id with
  | .ceil i g =>
    if j.commits = [] then s1.abandon i g
    else s1.withdraw i (fun c => match c.kind.commit? with
      | none => false
      | some k => j.commits.any (fun x => x.1 == k)) whyStore
  | .slot i => s1.withdraw i (fun c => decide (c.kind ≠ .expiry)) whyStore
  | .life => s1.withdrawLife .store
  | .tamper | .pagebad _ | .carry _ _ | .pageErase _ | .header _ _ | .cellProgram _ | .cellErase _ => s1

/-- The store becomes FAILED: STORE is set on both ports, every record job on the list is reported as not writable in list order, and
the steps of an unfinished head switch or reclaim are dropped (R60, R70). -/
def Part.failStore (s : Part) : Part :=
  let s1 := ({ s with mode := .failed, reclaim := none }).raiseBoth (fun e => e.addStore .failed)
  let s2 := (s.jobs.filter (fun j => j.id.isRecord)).foldl
    (fun (s : Part) j => if s.onList j.id then s.unwritable j else s) s1
  { s2 with jobs := s2.jobs.filter (fun j => !j.id.isRing) }

/-- The usable pages are recounted and the mode and wear level recomputed; the mode only falls (R67, R70). -/
def Part.recount (s : Part) : Part :=
  let m := modeOf s.usable
  let s1 := { s with wear := s.wearLevel }
  if m.below s.mode then
    (match m with
      | .failed => s1.failStore
      | .degraded | .normal => ({ s1 with mode := m }).raiseBoth (fun e => e.addStore m))
  else s1

/-! ### Bad pages (R67) -/

/-- A page leaves the ring as BAD (R54, R57). -/
def Part.pageGone (s : Part) (p : Fin 8) : Part := (s.modPage p (fun x => { x with role := .bad })).dropFacts p

/-- A page is found bad (R67): its role, the recount, and a class-4 PAGEBAD job unless the store is now FAILED. -/
def Part.foundBad (s : Part) (p : Fin 8) (retiring : Bool) : Part :=
  let s1 := if retiring then s.modPage p (fun x => { x with role := .retiring }) else s.pageGone p
  let s2 := s1.recount
  if s2.mode = .failed then s2 else s2.place (.pagebad p) 4 .journal []

/-! ### Reclaim (R62, R63, R65) -/

/-- A reclaimed page has become SPARE or BAD: the count of full reclaims, and the second case of R65. -/
def Part.reclaimed (s : Part) : Part :=
  let s1 := { s with reclaim := none }
  if s1.headFree then { s1 with fullReclaims := 0 }
  else
    let s2 := { s1 with fullReclaims := s1.fullReclaims + 1 }
    if s2.ringSize ≤ s2.fullReclaims ∧ s2.mode ≠ .failed then s2.failStore else s2

/-- A position put into a list kept in order of sequence number. -/
def insertBySeq (x : Nat × Fin 31) : List (Nat × Fin 31) → List (Nat × Fin 31)
  | [] => [x]
  | y :: rest => if x.1 < y.1 then x :: y :: rest else y :: insertBySeq x rest

/-- The positions of a page's records in the order of their sequence numbers (R62). -/
def Part.recordPositions (s : Part) (p : Fin 8) : List (Fin 31) :=
  (allPositions.foldl (fun l i =>
    match (readRecord s.store.pages[p].records[i]).get? with
    | none => l
    | some r => insertBySeq (r.seq, i) l) []).map Prod.snd

/-- Begins the reclaim of the oldest page: its carry-forward steps, its erase and its wear stamp go on the list in class 1 (R62). When
a reclaim moves on, a page with no live record goes straight to its erase (R63). A RETIRING page becomes BAD without an erase, and
the reclaim moves on; `fuel` bounds the pages passed so. -/
def Part.reclaimOldest : Nat → Part → Bool → Part
  | 0, s, _ => s
  | fuel + 1, s, movesOn =>
    match s.oldest with
    | none => { s with reclaim := none }
    | some p =>
      let steps := if movesOn && !s.pageLive p then [] else s.recordPositions p
      let s1 := steps.foldl (fun (s : Part) i => s.place (.carry p i) 1 .journal []) { s with reclaim := some p }
      if (s.page p).role = .retiring then
        if steps = [] then
          let s2 := (s1.pageGone p).reclaimed
          if s2.mode = .failed then s2 else Part.reclaimOldest fuel s2 true
        else s1
      else (s1.place (.pageErase p) 1 .journal []).place (.header p .wear) 1 .journal []

/-- The reclaim moves on to the new oldest page (R63), unless the store is FAILED. -/
def Part.moveOn (s : Part) : Part := if s.mode = .failed then s else Part.reclaimOldest 8 s true

/-- The stamps a page that becomes head needs: both for a page without a wear stamp (R61). -/
def Part.stampsFor (s : Part) (p : Fin 8) : Stamps :=
  if (readStamp s.store.pages[p].wear).isErased then .both else .sequence

/-- The old head, if there is one, becomes CLOSED; one found bad is RETIRING and no head (R61, step 2). -/
def Part.closeHead (s : Part) : Part :=
  match s.head with
  | none => s
  | some h => s.modPage h (fun x => { x with role := .closed })

/-- A page becomes HEAD with the next page sequence number, and the program of its stamps is placed (R61, step 1). -/
def Part.openHead (s : Part) (p : Fin 8) : Part :=
  let s1 := s.modPage p (fun x => { x with role := .head, seq := some s.nextPageSeq, used := 0, failed := 0 })
  ({ s1 with nextPageSeq := s.nextPageSeq + 1, headStamped := false }).place (.header p (s.stampsFor p)) 1 .journal []

/-- The lowest RESERVE page becomes SPARE, or a reclaim begins (R61, steps 3 and 4). -/
def Part.nextSpare (s : Part) : Part :=
  match s.reserve with
  | some r => s.modPage r (fun x => { x with role := .spare })
  | none => if s.reclaim.isSome then s else Part.reclaimOldest 8 s false

/-- The head switch to the spare page `p` (R61). -/
def Part.headSwitch (s : Part) (p : Fin 8) : Part := ((s.closeHead).openHead p).nextSpare

/-- The test for a head switch (R61). -/
def Part.headSwitchTest (s : Part) : Part :=
  if s.mode = .failed ∨ s.headFree then s
  else match s.spare with
    | none => s
    | some p => s.headSwitch p

/-- Whether a carry-forward copy or a record waits to be placed (R65). -/
def Part.mustPlace (s : Part) : Bool :=
  s.jobs.any (fun j => j.id.isRecord || (match j.id with
    | .carry p i => s.liveAt p i
    | .ceil _ _ | .slot _ | .life | .tamper | .pagebad _ | .pageErase _ | .header _ _ | .cellProgram _ | .cellErase _ => false))

/-- The first case of R65: no free position, no SPARE or RESERVE page, and the oldest page holds a live record. -/
def Part.noRoom (s : Part) : Bool :=
  !s.headFree && s.spare.isNone && s.reserve.isNone &&
  (match s.oldest with
    | none => false
    | some p => s.pageLive p)

/-- The test of R65's first case (R77). -/
def Part.roomTest (s : Part) : Part :=
  if s.mode ≠ .failed ∧ s.noRoom ∧ s.mustPlace then s.failStore else s

/-- The tests that follow an outcome (R61, R65, R79). -/
def Part.ringTests (s : Part) : Part := s.headSwitchTest.roomTest

end Sys2Proof.Machine
end

