-- ==== Sys2Proof/Machine/Apply.lean ====
section
/-! DEFINITION. Applying a verified SLOT record (R16, R132, R137, R140, R141, R166, R170), a verified LIFE record (R162), and the
zeroize of a tamper event (R13, R18, R169 to R171). -/

namespace Sys2Proof.Machine

/-! ### What a record carries (R15) -/

/-- The ready changes a record composed now carries: folding stops before the first that is not ready (R15). -/
def readyPart : List Change → List Change
  | [] => []
  | c :: rest => if c.ready then c :: readyPart rest else []

/-- Changes folded in order. -/
def foldAll (p : Pers) (l : List Change) : Pers := l.foldl (fun p c => p.fold c.kind) p

/-- The payload of a SLOT record composed now (R15). -/
def Slot.compose (x : Slot) : Pers := foldAll x.applied (readyPart x.awaiting)

/-- The changes of a record with the slot before and after each (R16). -/
def foldSteps : Pers → List Change → List (Change × Pers × Pers)
  | _, [] => []
  | p, c :: rest => (c, p, p.fold c.kind) :: foldSteps (p.fold c.kind) rest

/-! ### ZEROIZING (R13, R170) -/

/-- The envelope whose checks are being made for a slot that enters ZEROIZING gets ENV_TAMPER; its unwrap job is withdrawn, or its
result discarded (R126). -/
def Part.tamperEnvelope (s : Part) (i : Fin 16) : Part :=
  match (if s.receiver.state = .checking then parseEnvelope s.receiver.bytes else none) with
  | none => s
  | some e =>
    if e.slot = i then
      let run := s.te.run.map (fun r => if r.client = .er then { r with condemned := true } else r)
      ({ s with te := { s.te with er := none, run := run } }).giveVerdict .envTamper
    else s

/-- A slot enters ZEROIZING and its zeroize change is placed with a class-3 SLOT job (R13, R18, R31, R43, R170): a new one, or the class-4
job that still waits behind a record in flight, which the change joins and which keeps its age (R75, R76, R83). -/
def Part.zeroizeSlot (s : Part) (i : Fin 16) : Part :=
  let s1 := s.modSlot i (fun x => { x with zeroizing := true })
  let s2 := s1.abortChainsOn (fun j _ => j = i)
  let s3 := s2.withdraw i (fun _ => true) whyTamper
  let s4 := (s3.zeroizeWindows i).tamperEnvelope i
  s4.accept i { kind := .zeroize, ready := true, taken := false, source := .part } 3 .keyStore []

/-- Whether an awaiting list holds a LOAD_PLAIN or RENEW change (R171). -/
def bringsIn (l : List Change) : Bool :=
  l.any (fun c => match c.kind with
    | .load _ _ _ _ | .renew _ _ _ _ _ => true
    | .unload | .activate _ | .adopt _ _ | .cancel _ _ | .expiry | .zeroize | .correction => false)

/-- Whether a slot's erase-on-tamper is yes. -/
def Pers.erases (p : Pers) : Bool :=
  match p.attrs with
  | none => false
  | some a => a.erase

/-- A tamper event at one slot: a slot marked erase-on-tamper that holds a generation enters ZEROIZING (R170), and is in the mask; one
that is already ZEROIZING is in the mask again; an EMPTY or UNUSED slot with a LOAD_PLAIN or RENEW awaiting loses the changes not taken,
and waits for its record in flight (R171); the commands among them are refused with SLOT_STATE (log entry 39). R170 gives the slot order of
the zeroize jobs alone; that orphans' erases take their ages in it too is the model's choice (log entry 46). -/
def Part.tamperSlot (acc : Part × Word) (i : Fin 16) : Part × Word :=
  let s := acc.1
  let x := s.slot i
  if x.zeroizing then (s, acc.2 ||| slotBit i)
  else if x.applied.erases && !x.applied.gens.isEmpty then (s.zeroizeSlot i, acc.2 ||| slotBit i)
  else if x.applied.gens.isEmpty && x.projected.erases && bringsIn x.awaiting then
    let s1 := if x.awaiting.any (fun c => c.taken) then s.modSlot i (fun x => { x with armed := true }) else s
    (s1.withdraw i (fun _ => true) whyTamper, acc.2)
  else acc

/-- The tamper count after an event, held at 4,294,967,295 (R169). -/
def nextTamper (n : Nat) : Nat := min (n + 1) maxCounter

/-- A tamper event (R169 to R172). No TAMPER job is placed in a FAILED store (R172). -/
def Part.tamper (s : Part) : Part :=
  let s1 := { s with cover := .opened, debounce := none, tamperCount := nextTamper s.tamperCount }
  let s2 := if s1.mode = .failed then s1 else s1.place .tamper 4 .lifecycleMonitor []
  let out := allSlots.foldl Part.tamperSlot (s2, 0)
  out.1.raiseBoth (fun e => e.addTamper out.2)

/-! ### A verified SLOT record (R16) -/

/-- Step 1 of R16: windows of a slot whose new state is `new`. Removed generations' windows are discarded, newly listed ones' opened,
and a generation that begins to issue takes its grant time (R26). A TRANSPORT slot has none. -/
def Part.applyWindows (s : Part) (i : Fin 16) (old new : Pers) : Part :=
  let nums := new.gens.map Gen.num
  let gone := (s.windows.filter (fun w => w.slot = i && !nums.contains w.gen)).map Window.gen
  let s1 := gone.foldl (fun s g => s.discardWindow i g) s
  match new.attrs with
  | none => s1
  | some a =>
    if a.cls = .transport then s1
    else new.gens.foldl (fun (s : Part) g =>
      let s2 := if (s.window i g.num).isNone then s.openWindow i g.num a.smin
        else if new.issues g.num && !old.issues g.num then
          s.modWindow i g.num (fun w => { w with grantTime := s.sec })
        else s
      if new.issues g.num && !old.issues g.num then s2.wantTest i g.num else s2) s1

/-- The generations a record removed: those the slot held, or that the record's earlier changes brought in, and that it no longer
lists (R16, R166). Their order, which gives the ages of their cells' erases, is the model's: CURRENT, then OUTGOING, then PENDING, and of
several changes in the order first met, where 9.6 shows CURRENT before OUTGOING and no rule says more. DESIGN CHOICE (log entry 46). -/
def removedGens (new : Pers) (steps : List (Change × Pers × Pers)) : List Gen :=
  (steps.flatMap (fun x => x.2.1.gens ++ x.2.2.gens)).foldl
    (fun l g => if new.gens.any (fun y => y.num == g.num) || l.any (fun y => y.num == g.num) then l else l ++ [g]) []

/-- Step 2 of R16 for the removed generations: cells released, chains aborted. Held requests went with the windows. The cells are released in
the order of the list, and their erases take their ages so (R74): DESIGN CHOICE (log entry 46). -/
def Part.releaseGens (s : Part) (i : Fin 16) (gone : List Gen) (cls : Nat) : Part :=
  let s1 := gone.foldl (fun s g => s.releaseCell g.cell cls) s
  gone.foldl (fun s g => s.abortChainsOn (fun j n => j = i && n == g.num)) s1

/-- Grace remaining after a record is applied (R10): removed outside a switch, set to the slot's grace when the record begins one. -/
def graceAfter (left : Option Nat) (old new : Pers) : Option Nat :=
  if new.state.inSwitch then
    (if old.state.inSwitch ∧ genNumber old.outgoing = genNumber new.outgoing then left
     else new.attrs.map Attrs.grace)
  else none

/-- Whether a grace expiry in the record moved a port's view (R140). An ADOPT of the port folded before the expiry leaves it no view to move,
and the port is not given FORCED. Where an ACTIVATE and an ADOPT of the port stand behind the expiry, both changes moved the view and the two
sentences of R140 disagree: FORCED is set. DESIGN CHOICE (log entry 50). -/
def forcedBy (p : Port) (steps : List (Change × Pers × Pers)) : Bool :=
  steps.any (fun x => x.1.kind = .expiry && x.2.1.view p == some .outgoing && x.2.2.view p == some .current)

/-- The reply of one carried change (R132, R137, R165, R166), or the verdict COMMITTED (R123, R125). Where a record carries several
changes, CURRENT and OUTGOING are as just after the command's own fold, and grace remaining as the record leaves it (log entry 37). There
too "retired" of an ADOPT is what its own fold did, not what another change of the record did, where R137 speaks of the record: DEDUCED (log
entry 49); and highest generation seen of an UNLOAD is as just after its own fold, before a LOAD_PLAIN behind it: DESIGN CHOICE (log entry
51). -/
def Part.replyTo (s : Part) (i : Fin 16) (step : Change × Pers × Pers) : Part :=
  let c := step.1
  let after := step.2.2
  let slotItem := ReplyItem.byte (BitVec.ofNat 8 i.val)
  match c.source with
  | .part => s
  | .envelope => s.giveVerdict .committed
  | .command w =>
    match c.kind with
    | .load _ g _ _ => s.answer w .loadPlain .ok [slotItem, word1 g]
    | .unload => s.answer w .unload .ok [slotItem, word1 after.highest]
    | .activate _ =>
      s.answer w .activate .ok [slotItem, word1 (genNumber after.current), word1 (genNumber after.outgoing),
        word1 ((s.slot i).graceLeft.getD 0)]
    | .adopt _ _ =>
      s.answer w .adopt .ok [slotItem, word1 (genNumber after.current), .byte (viewCode (some .current)),
        .byte (yesNo (step.2.1.outgoing.isSome && after.outgoing.isNone))]
    | .renew .. | .cancel .. | .expiry | .zeroize | .correction => s

/-- The commits a record's changes end (R84). -/
def Part.endCommits (s : Part) (l : List Change) : Part :=
  l.foldl (fun (s : Part) c => match c.kind.commit? with
    | none => s
    | some k => s.endCommit k) s

/-- The class of a slot's SLOT job for the changes that await: class 3 with a zeroize among them (R76). -/
def slotClass (l : List Change) : Nat := if l.any (fun c => c.kind = .zeroize) then 3 else 4

/-- The slot record after its SLOT record is applied: the payload becomes the applied state and the carried changes leave the list; a
zeroize among them ends ZEROIZING (R16, R170), in EMPTY, or in UNUSED where the slot has no class (log entry 52). -/
def Slot.applied' (x : Slot) (new : Pers) : Slot :=
  { x with applied := new, graceLeft := graceAfter x.graceLeft x.applied new,
           zeroizing := x.zeroizing && !(x.awaiting.any (fun c => c.taken && c.kind = .zeroize)),
           awaiting := x.awaiting.filter (fun c => !c.taken) }

/-- A SLOT record verified (R16), its results handed on in order; then the tamper event that waited for it (R171), and a SLOT job for
changes still awaiting (R15). With none awaiting, a job that the event left on the list (`slotJobLeaves`) leaves it (log entry 35). -/
def Part.applySlot (s : Part) (i : Fin 16) (new : Pers) : Part :=
  let x := s.slot i
  let carried := x.awaiting.filter (fun c => c.taken)
  let steps := foldSteps x.applied carried
  let cls := if carried.any (fun c => c.kind = .zeroize) then 3 else 5
  let s1 := (s.setSlot i (x.applied' new)).endCommits carried
  let s2 := s1.applyWindows i x.applied new
  let s3 := s2.releaseGens i (removedGens new steps) cls
  let s4 := if forcedBy .mp steps then s3.raise .mp (fun e => e.addForced (slotBit i)) else s3
  let s5 := if forcedBy .np steps then s4.raise .np (fun e => e.addForced (slotBit i)) else s4
  let s6 := steps.foldl (fun s st => s.replyTo i st) s5
  let s7 := if x.armed then
      let t := s6.modSlot i (fun y => { y with armed := false })
      if new.erases && !new.gens.isEmpty then
        (t.zeroizeSlot i).raiseBoth (fun e => e.addTamper (slotBit i))
      else t
    else s6
  match (s7.slot i).awaiting with
  | [] => s7.unplace (.slot i)
  | l => s7.place (.slot i) (slotClass l) .keyStore []

/-! ### A verified LIFE record (R162) -/

/-- The reply of a LIFE change (R163, R168). -/
def Part.replyLife (s : Part) (c : LifeChange) : Part :=
  match c.target with
  | .sealed => s.answer c.waiter .seal .ok [.byte (Lifecycle.code .sealed)]
  | .blank | .provisioned =>
    s.answer c.waiter .setIdentity .ok [.byte (Lifecycle.code .provisioned), word4 (c.identity.getD 0)]

/-- A LIFE record verified: the applied lifecycle and identity take its values, and the commands' replies are ready (R162). -/
def Part.applyLife (s : Part) (l : Lifecycle) (id : Option Ident) : Part :=
  let done := s.lifeChanges.filter (fun c => c.taken)
  done.foldl (fun s c => s.replyLife c)
    { s with lifecycle := l, identity := id, lifeChanges := s.lifeChanges.filter (fun c => !c.taken) }

end Sys2Proof.Machine
end

