-- ==== Sys2Proof/Machine/Engine.lean ====
section
/-! DEFINITION. The program engine's shared operations (chapter 4): takeable jobs and service order, preparation, and the handing on of
outcomes. -/

namespace Sys2Proof.Machine

/-! ### Choosing (R77, R78) -/

/-- Whether a head can take a record (R77); in a FAILED store a record job is chosen and reported (R60). -/
def Part.recordReady (s : Part) : Bool := s.mode = .failed || (s.headFree && s.headStamped)

/-- Whether every commit step a job is has its previous step verified (R77). -/
def Part.stepsReady (s : Part) (j : Job) : Bool :=
  j.commits.all (fun x => match s.commit x.1 with
    | none => true
    | some c => decide (x.2 ≤ c.verified + 1))

/-- Whether a job is a carry-forward step of a page. -/
def JobId.carries (p : Fin 8) : JobId → Bool
  | .carry q _ => q == p
  | .ceil _ _ | .slot _ | .life | .tamper | .pagebad _ | .pageErase _ | .header _ _ | .cellProgram _ | .cellErase _ => false

/-- Whether a carry-forward step of a page is on the list. -/
def Part.carryLeft (s : Part) (p : Fin 8) : Bool := s.jobs.any (fun k => k.id.carries p)

/-- Whether a carry-forward step of a page is on the list, older than an age. -/
def Part.carryBefore (s : Part) (p : Fin 8) (age : Nat) : Bool := s.jobs.any (fun k => k.id.carries p && decide (k.age < age))

/-- Whether a slot's first awaiting change is ready (R77). -/
def firstReady : List Change → Bool
  | [] => false
  | c :: _ => c.ready

/-- Whether a job is takeable (R77). The carry-forward steps of a page that holds no live record need no head position (R63). -/
def Part.takeable (s : Part) (j : Job) : Bool :=
  match j.id with
  | .ceil _ _ => s.recordReady && s.stepsReady j
  | .slot i => s.recordReady && firstReady (s.slot i).awaiting && s.stepsReady j
  | .life | .tamper | .pagebad _ => s.recordReady
  | .carry p _ => ((s.headFree && s.headStamped) || !s.pageLive p) && !s.carryBefore p j.age
  | .pageErase p => !s.carryLeft p
  | .header p .wear => !s.onList (.pageErase p)
  | .header _ .sequence | .header _ .both => true
  | .cellProgram _ | .cellErase _ => true

/-- The ages of the first steps of the open commits a job is a step of (R78). -/
def Part.openAges (s : Part) (j : Job) : List Nat :=
  (s.commits.filter (fun c => c.opened && j.commits.any (fun x => x.1 == c.id))).map Commit.firstAge

/-- A job's place in service order: class, then open commits' steps by the age of their first step, then age (R78). -/
def Part.servicePlace (s : Part) (j : Job) : Nat × Nat × Nat :=
  match s.openAges j with
  | [] => (j.cls, 1, j.age)
  | a :: rest => (j.cls, 0, rest.foldl min a)

/-- Whether a place is served before another (R78). -/
def placeBefore (a b : Nat × Nat × Nat) : Bool :=
  decide (a.1 < b.1) || (a.1 == b.1 && (decide (a.2.1 < b.2.1) || (a.2.1 == b.2.1 && decide (a.2.2 < b.2.2))))

/-- The first takeable job in service order (R78). -/
def Part.choose (s : Part) : Option Job :=
  (s.jobs.filter (fun j => s.takeable j)).foldl (fun best j => match best with
    | none => some j
    | some b => if placeBefore (s.servicePlace j) (s.servicePlace b) then some j else some b) none

/-! ### Taking and preparing (R79) -/

/-- Marks the commits a taken job is a step of as open (R78). -/
def Part.openCommits (s : Part) (j : Job) : Part :=
  { s with commits := s.commits.map (fun c => if j.commits.any (fun x => x.1 == c.id) then { c with opened := true } else c) }

/-- A record job becomes the job in flight, at the head's lowest free position with the next sequence number (R55, R59). -/
def Part.startRecord (s : Part) (j : Job) (b : Body) : Part :=
  match s.headPosition with
  | none => s
  | some (p, i) => { s with inFlight := some { job := j, work := .record p i s.nextSeq b }, nextSeq := s.nextSeq + 1 }

/-- The attributes a LOAD_PLAIN's commit brings in, if the commit is one (R165). -/
def loadedAttrs (k : Nat) (l : List Change) : Option Attrs :=
  l.findSome? (fun c => match c.kind with
    | .load a _ _ n => if n = k then some a else none
    | .unload | .activate _ | .adopt _ _ | .renew _ _ _ _ _ | .cancel _ _ | .expiry | .zeroize | .correction => none)

/-- The S_min of a commit's CEIL record at this moment: a LOAD_PLAIN's own (R165), a RENEW's that of the slot's projected state (R123);
none when an UNLOAD awaits behind the RENEW, so that the projected state has no S_min (log entry 25). -/
def Part.commitSmin (s : Part) (i : Fin 16) (k : Nat) : Option Nat :=
  (((loadedAttrs k (s.slot i).awaiting).or (s.projected i).attrs)).map Attrs.smin

/-- The ready changes are taken into the record (R15, R17). -/
def takeReady : List Change → List Change
  | [] => []
  | c :: rest => if c.ready then { c with taken := true } :: takeReady rest else c :: rest

/-- A carry-forward step of a RETIRING page has ended: when none is left the page becomes BAD without an erase and the reclaim moves
on (R63). -/
def Part.afterCarry (s : Part) (p : Fin 8) : Part :=
  if s.reclaim = some p ∧ (s.page p).role = .retiring ∧ s.carryLeft p = false then
    ((s.pageGone p).reclaimed).moveOn
  else s

/-- A page of a reclaim is found BAD: at its erase limit, at a failed erase, or at a failed wear stamp (R63). -/
def Part.pageLost (s : Part) (p : Fin 8) : Part :=
  ((((s.unplace (.pageErase p)).unplace (.header p .wear)).foundBad p false).reclaimed).moveOn

/-- A taken job is prepared and becomes the job in flight, or ends at once (R79). `s` has the job off its list. -/
def Part.prepare (s : Part) (j : Job) : Part :=
  if s.mode = .failed ∧ j.id.isRecord then s.unwritable j
  else match j.id with
  | .ceil i g =>
    (match j.commits with
      | [] => (match s.window i g with
        | none => s
        | some w =>
          let d := w.stride s.sec (((s.slot i).applied.attrs.map Attrs.smin).getD 16) s.wear s.mode
          (s.modWindow i g (fun w => { w with reservation := .inFlight })).startRecord j (.ceil i g (newCeiling w.p d) d))
      | x :: _ => (match s.commitSmin i x.1 with
        | some m => s.startRecord j (.ceil i g (1 + m) m)
        | none =>
          let m := 16 * 2 ^ (Config.openSmin s.draws).val
          (s.draw).startRecord j (.ceil i g (1 + m) m)))
  | .slot i =>
    let b := Body.slot i (s.slot i).compose
    (s.modSlot i (fun x => { x with awaiting := takeReady x.awaiting })).startRecord j b
  | .life =>
    let b := Body.life s.projectedLife s.projectedIdentity
    ({ s with lifeChanges := s.lifeChanges.map (fun c : LifeChange => { c with taken := true }) }).startRecord j b
  | .tamper => s.startRecord j (.tamper s.tamperCount)
  | .pagebad p => s.startRecord j (.pagebad p)
  | .carry p i =>
    if s.liveAt p i then
      match s.headPosition, (readRecord s.store.pages[p].records[i]).get? with
      | some (q, k), some r =>
        { s with inFlight := some { job := j, work := .carry q k { r with seq := s.nextSeq } }, nextSeq := s.nextSeq + 1 }
      | _, _ => s
    else (s.afterCarry p).ringTests
  | .pageErase p =>
    if 100000 ≤ (s.page p).erases then (s.pageLost p).ringTests
    else { s with inFlight := some { job := j, work := .pageErase p } }
  | .header p st =>
    let wear : Option Nat := match st with
      | .wear | .both => some (s.page p).erases
      | .sequence => none
    let seq : Option Nat := match st with
      | .sequence | .both => some (s.page p).place
      | .wear => none
    { s with inFlight := some { job := j, work := .header p wear seq } }
  | .cellProgram c =>
    (match (j.commits.head?).bind (fun x => s.commit x.1) with
      | none => s
      | some m => match m.key with
        | none => s
        | some k =>
          let s1 := s.modCommit m.id (fun m => { m with key := none })
          { s1 with inFlight := some { job := j, work := .cellProgram c m.slot m.gen k } })
  | .cellErase c => { s with inFlight := some { job := j, work := .cellErase c } }

/-- The engine takes the first takeable job when it is IDLE and not gated (R78). A record job for which the ring cannot make room makes
the store FAILED first (R65, R77). -/
def Part.takeJob (s : Part) : Part :=
  if s.gated ∨ s.inFlight.isSome then s
  else
    let s0 := s.roomTest
    match s0.choose with
    | none => s0
    | some j => (({ s0 with jobs := s0.jobs.filter (fun k => k.id != j.id) }).openCommits j).prepare j

/-! ### A job back on the list (R59) -/

/-- A record job's changes, reservation or LIFE change are no longer taken into a record (R59). In a slot that has entered ZEROIZING, or
whose tamper event waited for the record, the changes are then withdrawn (R18, R171; log entry 21). -/
def Part.untake (s : Part) (j : Job) : Part :=
  match j.id with
  | .slot i =>
    let x := s.slot i
    let was := (x.awaiting.filter (fun c => c.taken)).map (fun c => { c with taken := false })
    let s1 := s.modSlot i (fun x =>
      { x with awaiting := x.awaiting.map (fun c => { c with taken := false }), armed := false })
    if (x.zeroizing ∨ x.armed) ∧ s.mode ≠ .failed then
      s1.withdraw i (fun c => was.contains c && decide (c.kind ≠ .zeroize)) whyTamper
    else s1
  | .ceil i g =>
    if j.commits = [] then s.modWindow i g (fun w => { w with reservation := .queued }) else s
  | .life => { s with lifeChanges := s.lifeChanges.map (fun c : LifeChange => { c with taken := false }) }
  | .tamper | .pagebad _ | .carry _ _ | .pageErase _ | .header _ _ | .cellProgram _ | .cellErase _ => s

/-- Whether a job that goes back still has a requester (R83). DEDUCED (log entry 34): a CEIL job whose window was discarded, or whose
commit has stopped, a SLOT or LIFE job that carries no change any more, and a carry-forward step of a reclaim that was dropped, have none
and leave the part, where R59 and R82 put every record job that failed back on the list. -/
def Part.stillAsked (s : Part) (j : Job) : Bool :=
  match j.id with
  | .slot i => !(s.slot i).awaiting.isEmpty
  | .ceil i g =>
    if j.commits = [] then (s.window i g).isSome else j.commits.any (fun x => (s.commit x.1).isSome)
  | .life => !s.lifeChanges.isEmpty
  | .carry p _ => s.reclaim = some p
  | .tamper | .pagebad _ | .pageErase _ | .header _ _ | .cellProgram _ | .cellErase _ => true

/-- A job without the steps of commits that have stopped: of such a commit it is a step no longer (R83). -/
def Part.liveSteps (s : Part) (j : Job) : Job := { j with commits := j.commits.filter (fun x => (s.commit x.1).isSome) }

/-- A job goes back on the list in its old place, merging with one of its identity; in a FAILED store it is reported instead, and under
PFW what waits on it is treated as at an assertion (R59, R60). A SLOT job that stays when its return stops a commit is the slot's SLOT job
and no longer a step of the commit (R83); its requesters stay: log entry 47. -/
def Part.returnJob (s : Part) (j : Job) : Part :=
  let s1 := s.untake j
  if s1.stillAsked j = false then s1
  else if s1.mode = .failed then s1.unwritable j
  else
    let s2 := { s1 with jobs := putJob (s1.liveSteps j) s1.jobs }
    if s2.pfw then s2.powerSweep else s2

/-- A program failed at a position of the head (R59): the first failure on the page retries at once where a position is free; else the
job goes back. A second failure makes the head RETIRING (R67). `again` is the work of the retry. -/
def Part.recordFailed (s : Part) (f : InFlight) (p : Fin 8) (i : Fin 31) (again : Fin 31 → Nat → Work) : Part :=
  let second := (s.page p).failed ≠ 0
  let s1 := (s.storeAt p i .broken).modPage p (fun x => { x with used := i.val + 1, failed := 1 })
  let s2 := { s1 with inFlight := none }
  if second then ((s2.foundBad p true).returnJob f.job).ringTests
  else if h : i.val + 1 < 31 then
    if s.mode = .failed then (s2.returnJob f.job).ringTests
    else { s1 with inFlight := some { f with work := again ⟨i.val + 1, h⟩ s.nextSeq }, nextSeq := s.nextSeq + 1 }
  else (s2.returnJob f.job).ringTests

/-! ### Outcomes (R82) -/

/-- A step of a commit that has not stopped verified; after the CEIL record the commit's change is ready (R15, R84). -/
def Part.commitStep (s : Part) (k step : Nat) : Part :=
  match s.commit k with
  | none => s
  | some c =>
    let s1 := s.modCommit k (fun c => { c with verified := step })
    if step = 2 then
      s1.modSlot c.slot (fun x =>
        { x with awaiting := x.awaiting.map (fun y => if y.kind.commit? = some k then { y with ready := true } else y) })
    else s1

/-- A verified record is handed to its requesters (R82). -/
def Part.deliver (s : Part) (j : Job) (b : Body) : Part :=
  match b with
  | .ceil i g c d =>
    (match j.commits with
      | [] => (match s.window i g with
        | none => s
        | some w => if w.reservation = .inFlight then s.grant i g c d else s)
      | l => l.foldl (fun s x => s.commitStep x.1 2) s)
  | .slot i p => s.applySlot i p
  | .life l id => s.applyLife l id
  | .tamper _ | .pagebad _ => s

/-- A verified record stands in the head, and the fact index has it (R57, R59). -/
def Part.recorded (s : Part) (p : Fin 8) (i : Fin 31) (n : Nat) (b : Body) : Part :=
  let s0 := s.storeAt p i (encodeRecord (b.record n))
  (({ s0 with inFlight := none }).modPage p (fun x => { x with used := i.val + 1 })).setFact b.key p i n

/-- The record program in flight has ended (R59). -/
def Part.recordDone (s : Part) (ok : Bool) : Part :=
  match s.inFlight with
  | some { job := j, work := .record p i n b } =>
    if ok then ((s.recorded p i n b).deliver j b).ringTests
    else s.recordFailed { job := j, work := .record p i n b } p i (fun k m => .record p k m b)
  | _ => s

/-- A verified copy stands in the head and its key's fact index entry points at it (R62). -/
def Part.copied (s : Part) (p : Fin 8) (i : Fin 31) (r : Record) : Part :=
  let s0 := s.storeAt p i (encodeRecord r)
  let s1 := ({ s0 with inFlight := none }).modPage p (fun x => { x with used := i.val + 1 })
  match r.key? with
  | none => s1
  | some k => s1.setFact k p i r.seq

/-- The end of a carry-forward step's job (R63). -/
def Part.endCarry (s : Part) (j : Job) : Part :=
  match j.id with
  | .carry q _ => s.afterCarry q
  | .ceil _ _ | .slot _ | .life | .tamper | .pagebad _ | .pageErase _ | .header _ _ | .cellProgram _ | .cellErase _ => s

/-- The copy of a carry-forward step has ended (R62). -/
def Part.carryDone (s : Part) (ok : Bool) : Part :=
  match s.inFlight with
  | some { job := j, work := .carry p i r } =>
    if ok then ((s.copied p i r).endCarry j).ringTests
    else s.recordFailed { job := j, work := .carry p i r } p i (fun k m => .carry p k { r with seq := m })
  | _ => s

/-- The wear stamp of a reclaimed page verified: the page becomes SPARE and the reclaim is complete (R63). -/
def Part.becomeSpare (s : Part) (p : Fin 8) : Part :=
  (s.modPage p (fun x => { x with role := .spare, seq := none, used := 0, failed := 0 })).reclaimed

/-- The wear stamp's program, where the job has it (R63). A failed stamp leaves the page owed an erase, so it reads neither erased nor
intact (R93). -/
def Part.stampWear (s : Part) (p : Fin 8) (wear : Option Nat) (ok : Bool) : Part :=
  match wear with
  | none => s
  | some n =>
    s.storePage p (fun g => { g with wear := if ok then encodeStamp wearMarker n else .broken })

/-- The sequence stamp's program (R61): the new head takes records, or is BAD, its stamp neither erased nor intact (R93). -/
def Part.stampSeq (s : Part) (p : Fin 8) (n : Nat) (ok : Bool) : Part :=
  if ok then { s.storePage p (fun g => { g with stamp := encodeStamp seqMarker n }) with headStamped := true }
  else (s.storePage p (fun g => { g with stamp := .broken })).foundBad p false

/-- What a header program leads to, its wear stamp written (R61, R63). A job of both stamps programs the wear stamp first, and ends
there if that failed (log entry 15). -/
def Part.endHeader (s : Part) (p : Fin 8) (wear seq : Option Nat) (wearOk seqOk : Bool) : Part :=
  match seq with
  | none => if wearOk then s.becomeSpare p else s.pageLost p
  | some n => if wear.isSome && !wearOk then s.foundBad p false else s.stampSeq p n seqOk

/-- The header program in flight has ended (R61, R63). -/
def Part.headerDone (s : Part) (wearOk seqOk : Bool) : Part :=
  match s.inFlight with
  | some { job := _, work := .header p wear seq } =>
    ((({ s with inFlight := none } : Part).stampWear p wear wearOk).endHeader p wear seq wearOk seqOk).ringTests
  | _ => s

/-- What an erase that did not succeed leaves of one item, by a free value: erased, neither erased nor intact, or as before. -/
def Item.partErased (x : Item) (free : Fin 3) : Item :=
  match free with
  | 0 => .erased
  | 1 => .broken
  | _ => x

/-- What an erase that was torn or failed leaves of a page: no usable header, so that the page is owed an erase (R64, R89, R93), the
positions open (log entry 13). -/
def StoredPage.halfErased (g : StoredPage) (draw : Nat) : StoredPage :=
  { wear := .broken, stamp := .broken,
    records := Vector.ofFn (fun i : Fin 31 => g.records[i].partErased (Config.tornErase draw i.val)) }

/-- A page erase succeeded: the erase count rises, the page's entries leave the fact index, and the wear level is recomputed (R63, R68). -/
def Part.pageErased (s : Part) (p : Fin 8) : Part :=
  let s1 := ((s.storePage p (fun _ => .erased)).modPage p
    (fun x => { x with erases := x.erases + 1, seq := none, used := 0, failed := 0 })).dropFacts p
  { s1 with wear := s1.wearLevel }

/-- A page erase failed: the page is BAD (R63). -/
def Part.eraseFailed (s : Part) (p : Fin 8) : Part := ((s.storePage p (fun g => g.halfErased s.draws)).draw).pageLost p

/-- The page erase in flight has ended (R63). -/
def Part.pageEraseDone (s : Part) (ok : Bool) : Part :=
  match s.inFlight with
  | some { job := _, work := .pageErase p } =>
    let s0 : Part := { s with inFlight := none }
    (if ok then s0.pageErased p else s0.eraseFailed p).ringTests
  | _ => s

/-- A commit's change names the cell that its second allocation gave (R51). -/
def Change.rebind (k : Nat) (d : Fin 48) (y : Change) : Change :=
  match y.kind with
  | .load a g _ c => if c = k then { y with kind := .load a g d c } else y
  | .renew im g gr _ c => if c = k then { y with kind := .renew im g gr d c } else y
  | .unload | .activate _ | .adopt _ _ | .cancel _ _ | .expiry | .zeroize | .correction => y

/-- A commit goes on with a second cell (R51). -/
def Part.rebindCommit (s : Part) (m : Commit) (d : Fin 48) (key : Key) : Part :=
  let s1 := s.modCommit m.id (fun m => { m with cell := some d, key := some key, retried := true })
  let s2 := s1.modSlot m.slot (fun x => { x with awaiting := x.awaiting.map (Change.rebind m.id d) })
  if m.kind = .renew then { s2 with receiver := { s2.receiver with cell := some d } } else s2

/-- A commit ends with NO_CELL (R51): its cell is BAD and is not released. -/
def Part.giveUpCell (s : Part) (m : Commit) : Part :=
  (s.modCommit m.id (fun m => { m with cell := none })).withdraw m.slot (fun x => x.kind.commit? = some m.id) whyNoCell

/-- A failed cell program of a commit that goes on: one other cell, or the commit ends with NO_CELL (R51). Under PFW the new cell
program is a step not yet taken, and the commit stops (R87). -/
def Part.retryCell (s : Part) (j : Job) (m : Commit) (key : Key) : Part :=
  if m.retried then s.giveUpCell m
  else match s.freeCell with
    | none => s.giveUpCell m
    | some d =>
      let s1 := (s.allocate d m.slot m.gen).rebindCommit m d key
      let s2 := { s1 with jobs := insertByAge { j with id := .cellProgram d } s1.jobs }
      if s2.pfw then s2.powerSweep else s2

/-- A verified cell program: the cell holds the key, and the commit's first step has verified (R49, R84). -/
def Part.cellVerified (s : Part) (c : Fin 48) (k : KeyCell) (m : Option Commit) : Part :=
  let s1 := s.storeCell c (encodeCell k)
  match m with
  | none => s1
  | some m => s1.commitStep m.id 1

/-- A failed cell program (R51): the cell is BAD, also when its commit stopped while the program was in flight and has no more use for
the outcome (R83); a commit that still runs goes on. -/
def Part.cellFailed (s : Part) (j : Job) (c : Fin 48) (key : Key) (m : Option Commit) : Part :=
  let s1 := ((s.storeCell c (if Config.failedProgramErased s.draws then .erased else .broken)).draw).setCell c .bad
  match m with
  | none => s1
  | some m => s1.retryCell j m key

/-- The cell program in flight has ended (R50, R51). -/
def Part.cellProgramDone (s : Part) (ok : Bool) : Part :=
  match s.inFlight with
  | some { job := j, work := .cellProgram c i g key } =>
    let s0 : Part := { s with inFlight := none }
    let live := (j.commits.head?).bind (fun x => s.commit x.1)
    (if ok then s0.cellVerified c { slot := slotByte i, gen := g, key := key } live else s0.cellFailed j c key live).ringTests
  | _ => s

/-- The cell erase in flight has ended (R52). A failed erase leaves the key in its cell (R52, R142). A cell that is BAD, its program failed after its commit had stopped, stays so until a reset
(R49; log entry 40, DEDUCED). -/
def Part.cellEraseDone (s : Part) (ok : Bool) : Part :=
  match s.inFlight with
  | some { job := _, work := .cellErase c } =>
    let s0 := { s with inFlight := none }
    if ok then (s0.storeCell c .erased).setCell c (if s.cell c = .bad then .bad else .free)
    else s0.setCell c .bad
  | _ => s

end Sys2Proof.Machine
end

