-- ==== Sys2Proof/Machine/TagOps.lean ====
section
/-! DEFINITION. The tag engine's shared operations (chapter 8) and the envelope receiver's checks at the end of an unwrap
(R119 to R125). -/

namespace Sys2Proof.Machine

/-! ### Taking a job (R147, R148, R153) -/

/-- The rotation, beginning with the requester after the one just served (R147). -/
def Client.rotation : Client → List Client
  | .mp => [.np, .er, .mp]
  | .np => [.er, .mp, .np]
  | .er => [.mp, .np, .er]

/-- The next pending job in the rotation (R147). -/
def TagEngine.next (t : TagEngine) : Option (Client × TagJob) :=
  t.last.rotation.findSome? (fun c => (t.pendingOf c).map (fun j => (c, j)))

/-- The port of a requester; the envelope receiver's replies go to NP (R108). -/
def Client.port : Client → Port
  | .mp => .mp
  | .np | .er => .np

/-- The command a job answers. -/
def TagJob.cmd : TagJob → Cmd
  | .quickTag .. => .quickTag
  | .quickVerify .. => .quickVerify
  | .chainOpen .. => .chainOpen
  | .chainData .. => .chainData
  | .chainClose .. => .chainClose
  | .unwrap .. => .envClose

/-- A port's command in flight, not condemned. -/
def waiterOf (p : Port) : Waiter := { port := p, condemned := false }

/-- The exchange of the context places for a step on a parked context (R153). -/
def TagEngine.exchange (t : TagEngine) (p : Port) : TagEngine :=
  if ownedBy p t.live then t else if ownedBy p t.parked then { t with live := t.parked, parked := t.live } else t

/-- A job starts under its key (R148). -/
def Part.startTag (s : Part) (c : Client) (j : TagJob) (k : Key) : Part :=
  { s with te := { s.te with run := some { client := c, job := j, key := k, abort := .no, condemned := false } } }

/-- A job taken: its key is asked for and checked again (R21, R148), and a failing check ends it at once. -/
def Part.runTag (s : Part) (c : Client) (j : TagJob) : Part :=
  let p := c.port
  match j with
  | .quickTag i g _ _ | .quickVerify i g _ _ _ | .chainOpen i g _ _ _ =>
    (match s.keyFor i g (some p) with
      | none => s.refuse (waiterOf p) j.cmd (s.slot i).goneCode
      | some k => s.startTag c j k)
  | .chainData _ | .chainClose _ =>
    (match s.te.context p with
      | none => s.refuse (waiterOf p) j.cmd .chainNone
      | some x => (match s.keyFor x.slot x.gen (some p) with
        | none => s.refuse (waiterOf p) j.cmd .chainNone
        | some k => ({ s with te := s.te.exchange p }).startTag c j k))
  | .unwrap e =>
    (match (if s.transportOk e.tslot e.tgen then s.keyFor e.tslot e.tgen none else none) with
      | none => s.giveVerdict .envTransport
      | some k => s.startTag c j k)

/-- The engine takes the next pending job (R147). -/
def Part.takeTag (s : Part) : Part :=
  match s.te.run with
  | some _ => s
  | none => match s.te.next with
    | none => s
    | some (c, j) => ({ s with te := { s.te.setPending c none with last := c } }).runTag c j

/-! ### Unwrapping (R119, R160) -/

/-- The key an unwrap of a RENEW recovers (R119). -/
def unwrapKey (kt : Key) (e : Envelope) (id : Ident) : Key :=
  e.b ^^^ encipher kt (unwrapH e.slot.val e.gen id e.label.length 0)

/-- Whether the key check holds (R119). -/
def keyCheckOk (kt : Key) (e : Envelope) (id : Ident) : Bool :=
  let h' := unwrapH e.slot.val e.gen id e.label.length 0xFF
  match e.kind with
  | .renew => firstHalf (encipher kt (unwrapKey kt e id ^^^ h')) == e.v
  | .cancel => firstHalf (encipher kt h') == e.v

/-- Whether the header tag holds (R119). -/
def headerTagOk (kt : Key) (e : Envelope) : Bool := tagOf kt e.gen e.slot.val e.tgen e.covered == e.a

/-- An accepted RENEW: its change and the three steps of its commit are placed, and the buffer is COMMITTING (R123). The requester recorded of
each step is the envelope receiver alone, which R123 says places them; R75 and R59 name the key store controller for a SLOT record. DEDUCED
(log entry 47). -/
def Part.acceptRenew (s : Part) (e : Envelope) (c : Fin 48) (k : Key) : Part :=
  let id := s.nextAge
  let m : Commit := { id := id, kind := .renew, slot := e.slot, gen := e.gen, cell := some c, key := some k,
                      verified := 0, opened := false, retried := false, firstAge := id }
  let s1 := { s with commits := s.commits ++ [m], receiver := { s.receiver with state := .committing, cell := some c } }
  let s2 := s1.place (.cellProgram c) 4 .envelopeReceiver [(id, 1)]
  let s3 := s2.place (.ceil e.slot e.gen) 4 .envelopeReceiver [(id, 2)]
  s3.accept e.slot
    { kind := .renew e.immediate e.gen (clampGrace e.grace) c id, ready := false, taken := false, source := .envelope }
    4 .envelopeReceiver [(id, 3)]

/-- An accepted CANCEL: its change, ready at once, and the slot's SLOT job as its single step; the buffer is COMMITTING (R125). The requester
recorded of the step is the envelope receiver alone, as R125 places it; R75 and R59 name the key store controller. DEDUCED (log entry 47). -/
def Part.acceptCancel (s : Part) (e : Envelope) : Part :=
  let id := s.nextAge
  let age := match s.jobs.find? (fun j => j.id == .slot e.slot) with
    | none => id
    | some j => j.age
  let m : Commit := { id := id, kind := .cancel, slot := e.slot, gen := e.gen, cell := none, key := none,
                      verified := 0, opened := false, retried := false, firstAge := age }
  let s1 := { s with commits := s.commits ++ [m], receiver := { s.receiver with state := .committing } }
  s1.accept e.slot { kind := .cancel e.gen id, ready := true, taken := false, source := .envelope } 4 .envelopeReceiver [(id, 1)]

/-- Checks 5 again and 8 onward, made when the unwrap job has ended with check 7 passed (R120, R121), and the acceptance. -/
def Part.remainingChecks (s : Part) (e : Envelope) (k : Key) : Part :=
  if s.slotCheckNow e = false then s.giveVerdict .envSlot
  else match e.kind with
  | .renew =>
    (match renewSlotChecks (s.projected e.slot) e with
      | some v => s.giveVerdict v
      | none =>
        if s.mode ≠ .normal then s.giveVerdict .envStore
        else match s.freeCell with
          | none => s.giveVerdict .envNoCell
          | some c =>
            if s.pfw then
              -- check 12 allocated the cell, and it returns straight to FREE (R120)
              ((s.allocate c e.slot e.gen).setCell c .free).giveVerdict .envPower
            else (s.allocate c e.slot e.gen).acceptRenew e c k)
  | .cancel =>
    (match cancelSlotCheck (s.projected e.slot) e with
      | some v => s.giveVerdict v
      | none =>
        if s.mode = .failed then s.giveVerdict .envStore
        else if s.pfw then s.giveVerdict .envPower
        else s.acceptCancel e)

/-- The results of an unwrap job reach the envelope receiver: check 7, then the rest (R119, R120). -/
def Part.unwrapDone (s : Part) (kt : Key) (e : Envelope) : Part :=
  let id := s.identity.getD 0
  if keyCheckOk kt e id && headerTagOk kt e then s.remainingChecks e (unwrapKey kt e id) else s.giveVerdict .envIntegrity

/-! ### The end of a job (R148 to R156) -/

/-- A context enters a place when a CHAIN_OPEN job ends (R151). -/
def TagEngine.placeContext (t : TagEngine) (x : Context) : TagEngine :=
  match t.live with
  | none => { t with live := some x }
  | some y => { t with parked := some y, live := some x }

/-- The abort that reached a chain while its step ran takes effect at the job's end (R148, R158). -/
def Part.endAbort (s : Part) (p : Port) (a : Abort) : Part :=
  match a with
  | .no => s
  | .silent => { s with te := s.te.dropContext p }
  | .event => ({ s with te := s.te.dropContext p }).raise p Events.addChainAbort

/-- A chain's context after CHAIN_DATA (R154). -/
def Context.data (x : Context) (k : Key) (bytes : List Byte) : Context :=
  let r := absorbFull k ((x.part.length + bytes.length) / 16) x.x (x.part ++ bytes)
  { x with x := r.1, part := r.2, taken := x.taken + bytes.length }

/-- MATCH or MISMATCH (R145). -/
def matchCode (a b : Tag) : Code := if a = b then .match_ else .mismatch

/-- The job in flight ends and its result is handed on (R148). -/
def Part.endTag (s : Part) (r : TagRun) : Part :=
  let p := r.client.port
  let w : Waiter := { port := p, condemned := r.condemned }
  let s0 := { s with te := { s.te with run := none } }
  match r.job with
  | .quickTag i g c m =>
    s0.answer w .quickTag .ok [.byte (BitVec.ofNat 8 i.val), word1 g, word2 c, word4 (tagOf r.key c i.val g m)]
  | .quickVerify i g c t m =>
    s0.answer w .quickVerify (matchCode (tagOf r.key c i.val g m) t) [.byte (BitVec.ofNat 8 i.val), word1 g]
  | .chainOpen i g mode c n =>
    let x : Context := { port := p, mode := mode, slot := i, gen := g, counter := c, n := n, taken := 0,
                         x := encipher r.key (tagBlock0 c n i.val g), part := [], last := s.ms }
    let s1 := if r.condemned then s0 else { s0 with te := s0.te.placeContext x }
    let items := [ReplyItem.byte (BitVec.ofNat 8 i.val), word1 g] ++
      (match mode with
        | .tag => [word2 c]
        | .verify => [])
    (s1.answer w .chainOpen .ok items).endAbort p r.abort
  | .chainData b =>
    (match s0.te.context p with
      | none => s0.refuse w .chainData .chainNone
      | some x =>
        (({ s0 with te := s0.te.modContext p (fun x => x.data r.key b) }).answer w .chainData .ok
          [word1 (x.taken + b.length)]).endAbort p r.abort)
  | .chainClose t =>
    (match s0.te.context p with
      | none => s0.refuse w .chainClose .chainNone
      | some x =>
        let tag := firstHalf (absorbLast r.key x.x x.part)
        let s1 := { s0 with te := s0.te.dropContext p }
        (match t with
          | none => s1.answer w .chainClose .ok
              [.byte (BitVec.ofNat 8 x.slot.val), word1 x.gen, word2 x.counter, word4 tag]
          | some u => s1.answer w .chainClose (matchCode tag u) [.byte (BitVec.ofNat 8 x.slot.val), word1 x.gen]))
  | .unwrap e => if r.condemned then s0 else s0.unwrapDone r.key e

/-- TE_JOB_DONE, when a job is in flight. -/
def Part.doneTag (s : Part) : Part :=
  match s.te.run with
  | none => s
  | some r => s.endTag r

end Sys2Proof.Machine
end

