-- ==== Sys2Proof/Machine/PortOps.lean ====
section
/-! DEFINITION. The port controllers' shared operations (chapter 10): transfers and the words they clock out, the settling of
replies, dispatch, port restart. -/

namespace Sys2Proof.Machine

/-! ### Condemned commands (R179) -/

/-- Condemns a port's command where it waits. -/
def Waiter.condemn (p : Port) (w : Waiter) : Waiter := if w.port = p then { w with condemned := true } else w

/-- Condemns a port's command in a change. -/
def Change.condemn (p : Port) (c : Change) : Change :=
  match c.source with
  | .command w => { c with source := .command (w.condemn p) }
  | .envelope | .part => c

/-- Condemns a port's held request in a window. -/
def Window.condemn (p : Port) (w : Window) : Window :=
  { w with held := w.held.map (fun h => { h with waiter := h.waiter.condemn p }) }

/-- Condemns a port's commands among the awaiting changes. -/
def Part.condemnChanges (s : Part) (p : Port) : Part :=
  allSlots.foldl (fun (s : Part) i =>
    s.modSlot i (fun x => { x with awaiting := x.awaiting.map (Change.condemn p) })) s

/-- Condemns the ENV_CLOSE of the network port, which the envelope receiver keeps (R114). -/
def Receiver.condemn (r : Receiver) (p : Port) : Receiver :=
  if p = .np ∧ (r.state = .checking ∨ r.state = .committing) then { r with condemned := true } else r

/-- Condemns a port's command in flight wherever its owning block keeps it (R179, step 2). -/
def Part.condemn (s : Part) (p : Port) : Part :=
  let s1 := s.condemnChanges p
  { s1 with
    windows := s1.windows.map (Window.condemn p),
    lifeChanges := s1.lifeChanges.map (fun c : LifeChange => { c with waiter := c.waiter.condemn p }),
    receiver := s1.receiver.condemn p,
    te := { s1.te with run := s1.te.run.map (fun r : TagRun =>
      if r.client = clientOf p then { r with condemned := true } else r) } }

/-! ### Replies at the judgement of a transfer (R175) -/

/-- A reply leaves the buffer undelivered: a verdict's buffer becomes FREE (R114). -/
def Part.forgetReply (s : Part) (p : Port) (r : Reply) : Part :=
  let s1 := s.modPort p (fun x => { x with job := .idle })
  match r.maker with
  | .verdict => { s1 with receiver := .blank }
  | .plain | .status _ => s1

/-- A reply is delivered and its maker told: a verdict's buffer becomes FREE (R114), a STATUS_READ acknowledges (R181). -/
def Part.deliverReply (s : Part) (p : Port) (r : Reply) : Part :=
  let s1 := s.modPort p (fun x => { x with job := .idle })
  match r.maker with
  | .verdict => { s1 with receiver := .blank }
  | .plain => s1
  | .status sh => s1.modPort p (fun x => x.acknowledge sh)

/-- Settles the reply offered in a transfer of `n` words: delivered once the last of its words has been clocked out, lost where the words form a valid frame, or kept (R175). The flag
says that it was lost. -/
def Part.settle (s : Part) (p : Port) (offered : List Word) (n : Nat) (valid : Bool) : Part × Bool :=
  match (s.port p).job with
  | .ready r =>
    if offered = [] then (s, false)
    else if offered.length + 1 ≤ n then (s.deliverReply p r, false)
    else if valid then (s.forgetReply p r, true)
    else (s, false)
  | .idle | .waiting _ => (s, false)

/-! ### Frames at a port (R176, R177) -/

/-- A frame error (R176): FERR, the frame-error count and LINK. -/
def Part.frameError (s : Part) (p : Port) : Part :=
  s.modPort p (fun x =>
    { x.clearFlags with ferr := true, errors := min (x.errors + 1) 255, events := { x.events with link := true } })

/-- A frame without a frame error is dispatched (R177): NOP, busy refusal, and then the command. `lost` says that the frame caused a
reply to be lost, `busy` that a command was in flight when the transfer began. -/
def Part.dispatch (s : Part) (p : Port) (c : Cmd) (lost busy : Bool) (run : Part → Part) : Part :=
  let s1 := s.modPort p (fun x => { x.clearFlags with lost := lost })
  if c = .nop then s1
  else if busy then s1.modPort p (fun x => { x with busyref := true })
  else run (s1.modPort p (fun x => { x with job := .waiting c }))

/-- A port restart (R179). -/
def Part.restart (s : Part) (p : Port) : Part :=
  let s1 := match (s.port p).job with
    | .idle => s
    | .ready r => s.forgetReply p r
    | .waiting _ => (s.condemn p).modPort p (fun x => { x with job := .idle })
  let s2 := { s1 with te := s1.te.setPending (clientOf p) none }
  -- a job of a command condemned earlier may still run: its reply stays condemned, and its chain is aborted (R159)
  (s2.abortChain p false).modPort p PortState.clearFlags

/-! ### Transfers (R173) -/

/-- The offer fixed when select is asserted (R173; R90 in reset, R92 during STARTING). -/
def Part.offerNow (s : Part) (p : Port) : Offer :=
  { status := s.statusWord p, reply := if s.running then (s.port p).job.reply else [],
    busy := s.running && (s.port p).job.isWaiting, live := s.running }

/-- Word `n` of what a transfer clocks out (R173): word 0 is the status word, words 1 to k the reply, every later word a zero word. -/
def Offer.word (o : Offer) (n : Nat) : Word := (o.status :: o.reply).getD n 0

/-- The words clocked out in a transfer that clocks in `n` complete words, one for one (R173). In reset they are zero words (R90), and
during STARTING all but word 0 are (R92). They are read off the offer, and no field of the state holds them (log entry 43). -/
def Offer.clockedOut (o : Offer) (n : Nat) : List Word := (List.range n).map o.word

/-- The transfer is over: its offer leaves. -/
def Part.closeTransfer (s : Part) (p : Port) : Part := s.modPort p (fun x => { x with offer := none })

/-- The judgement of a transfer that began with offer `o` and clocked in `words` (R173). One begun in reset or during STARTING has no effect
(R92). `run` hands a command to its block. -/
def Part.judge (s : Part) (p : Port) (o : Offer) (words : List Word) (run : Cmd → List Word → Part → Part) : Part :=
  let s0 := s.closeTransfer p
  if words = [] ∨ o.live = false ∨ s.running = false then s0
  else if words.all (· == 0) then (s0.settle p o.reply words.length false).1
  else if words = [0xFFFF] then ((s0.settle p o.reply 1 false).1).restart p
  else match decodeFrame words with
    | none => ((s0.settle p o.reply words.length false).1).frameError p
    | some (c, body) =>
      let r := s0.settle p o.reply words.length true
      r.1.dispatch p c r.2 o.busy (run c body)

/-- A whole transfer that carries a command's frame, select asserted and released with nothing between (R173, R176, R177): the meaning
shared by the commands of the code table. -/
def Part.frame (s : Part) (p : Port) (c : Cmd) (body : List Word) (run : Part → Part) : Part :=
  let o := s.offerNow p
  let s0 := s.closeTransfer p
  if s.running = false then s0
  else if maxBody < body.length then ((s0.settle p o.reply (body.length + 2) false).1).frameError p
  else
    let r := s0.settle p o.reply (body.length + 2) true
    r.1.dispatch p c r.2 o.busy run

end Sys2Proof.Machine
end

