-- ==== Sys2Proof/Machine/StatusCommands.lean ====
section
/-! DEFINITION. NOP (R177), STATUS_READ (R181), SET_MASK (R182), SLOT_INFO (R23), STORE_INFO (R73). -/

namespace Sys2Proof.Machine

/-- A command's effect on everything but the queue of waiting commands. -/
def onPart (s : State) (f : Part → Part) : Host.Outcome State Fault Refusal := .next { s with toPart := f s.toPart }

/-! ### STATUS_READ -/

/-- The items of a STATUS_READ reply (R181, R186). R186 gives the RESET cause no width: a byte in an upper half, the lower byte zero, is
the model's choice (log entry 27). -/
def Part.statusItems (s : Part) (p : Port) : List ReplyItem :=
  let x := s.port p
  let e := x.events
  let mask (m : Option Word) : ReplyItem := .words [m.getD 0]
  [.words [s.kinds p], .byte (causeCode e.reset), mask e.forced, .byte ((e.store.map StoreMode.code).getD 0), mask e.cellLost,
   mask e.tamper, .words [s.adoptDue p], .words [s.counterLow p], .words [s.exhaustedMask p], .words [x.mask],
   .byte (BitVec.ofNat 8 x.errors), .byte s.lifecycle.code, word4 (s.identity.getD 0), word2 s.tamperCount]

/-- STATUS_READ (R181): the reply at once; without PEEK its delivery acknowledges what it shows. -/
def Part.statusRead (s : Part) (p : Port) (body : List Word) : Part :=
  match argPeek body with
  | none => s.refuse (waiterOf p) .statusRead .badArg
  | some peek =>
    let x := s.port p
    let maker := if peek then Maker.plain else .status (shownOf x.events x.errors)
    (s.modPort p (fun x => if peek then x else { x with events := x.events.seen })).makeReady p
      { words := replyWords .ok .statusRead (s.statusItems p), maker := maker }

/-! ### SET_MASK -/

/-- SET_MASK (R182). -/
def Part.setMask (s : Part) (p : Port) (body : List Word) : Part :=
  match argMask body with
  | none => s.refuse (waiterOf p) .setMask .badArg
  | some m => (s.modPort p (fun x => { x with mask := m })).answer (waiterOf p) .setMask .ok [.words [m]]

/-! ### SLOT_INFO -/

/-- One entry of SLOT_INFO's list of issuing generations (R23, R186). -/
def Part.issuingItems (s : Part) (i : Fin 16) (v : View) (g : Gen) : List ReplyItem :=
  match s.window i g.num with
  | none => [.byte (viewCode (some v)), .byte 0, word2 0, word2 0]
  | some w => [.byte (viewCode (some v)), .byte (yesNo w.exhausted), word2 w.t, word2 w.p]

/-- The awaiting item of SLOT_INFO (R23): absent for an UNUSED slot, which a ZEROIZING one is not. -/
def Slot.awaitingItem (x : Slot) : Byte := if x.state = .unused then 0 else yesNo (!x.awaiting.isEmpty)

/-- The items of a SLOT_INFO reply (R23, R186). For an UNUSED slot all but slot, state and highest generation seen are absent. A ZEROIZING
slot without attributes (R18) has none of them to show, and its awaiting item. -/
def Part.slotItems (s : Part) (i : Fin 16) : List ReplyItem :=
  let x := s.slot i
  let p := x.applied
  let head : List ReplyItem := [.byte (BitVec.ofNat 8 i.val), .byte x.state.code]
  match p.attrs with
  | none =>
    head ++ [.byte x.awaitingItem, .byte 0, .byte 0, .byte 0, word1 0, word1 0, word1 0, word1 p.highest, .byte 0, labelWords [], word1 0,
             word1 0, word1 0, .byte 0, .byte 0, .byte 0, word1 0]
  | some a =>
    head ++ [.byte x.awaitingItem, .byte a.cls.code, .byte (yesNo a.erase), .byte (BitVec.ofNat 8 a.tslot.val),
             word1 a.smin, word1 a.grace, word1 (x.graceLeft.getD 0), word1 p.highest,
             .byte (BitVec.ofNat 8 a.label.length), labelWords a.label, word1 (genNumber p.pending),
             word1 (genNumber p.current), word1 (genNumber p.outgoing), .byte (if p.onCommand then 2 else 0),
             .byte (viewCode p.mpView), .byte (viewCode p.npView), word1 p.issuing.length]
      ++ p.issuing.flatMap (fun v => s.issuingItems i v.1 v.2)

/-- SLOT_INFO (R23): changes no state, and its reply is ready at once. -/
def Part.slotInfo (s : Part) (p : Port) (body : List Word) : Part :=
  match (argSlot body).bind slotOf? with
  | none => s.refuse (waiterOf p) .slotInfo .badArg
  | some i => s.answer (waiterOf p) .slotInfo .ok (s.slotItems i)

/-! ### STORE_INFO -/

/-- The number of cells in a state (R73). -/
def Part.countCells (s : Part) (f : Cell → Bool) : Nat := (allCells.filter (fun c => f (s.cell c))).length

/-- Whether a cell is USED. -/
def Cell.isUsed : Cell → Bool
  | .used _ _ => true
  | .free | .released _ | .bad => false

/-- Whether a cell is RELEASED. -/
def Cell.isReleased : Cell → Bool
  | .released _ => true
  | .free | .used _ _ | .bad => false

/-- A page number item, FFh when absent (R186). -/
def pageItem : Option (Fin 8) → ReplyItem
  | none => .byte 0xFF
  | some p => .byte (BitVec.ofNat 8 p.val)

/-- A count item of at most 255 (R186). -/
def countItem (n : Nat) : ReplyItem := .byte (BitVec.ofNat 8 n)

/-- The items of a STORE_INFO reply (R73, R186). -/
def Part.storeItems (s : Part) : List ReplyItem :=
  [.byte s.mode.code, countItem s.wear, countItem s.usable]
  ++ allPages.flatMap (fun p => [.words [pair (s.page p).role.code 0], word2 (s.page p).erases])
  ++ [pageItem s.head, pageItem s.spare,
      countItem (match s.head with
        | none => 0
        | some p => (s.page p).used),
      .byte (yesNo s.reclaim.isSome), countItem s.liveCount, countItem (s.countCells (· == .free)),
      countItem (s.countCells Cell.isUsed), countItem (s.countCells Cell.isReleased), countItem (s.countCells (· == .bad)),
      countItem s.jobs.length]

/-- STORE_INFO (R73): changes no state, and its reply is ready at once. -/
def Part.storeInfo (s : Part) (p : Port) (body : List Word) : Part :=
  if body = [] then s.answer (waiterOf p) .storeInfo .ok s.storeItems
  else s.refuse (waiterOf p) .storeInfo .badArg

/-! ### The commands -/

/-- NOP: taken in every state of the port, no reply, only the flags change (R177). A body is not looked at (log entry 17). -/
def execNop (p : Port) (body : List Word) (s : State) : Host.Outcome State Fault Refusal :=
  onPart s (fun s => s.frame p .nop body id)

/-- STATUS_READ in a frame. -/
def execStatusRead (p : Port) (body : List Word) (s : State) : Host.Outcome State Fault Refusal :=
  onPart s (fun s => s.frame p .statusRead body (fun s => s.statusRead p body))

/-- SET_MASK in a frame. -/
def execSetMask (p : Port) (body : List Word) (s : State) : Host.Outcome State Fault Refusal :=
  onPart s (fun s => s.frame p .setMask body (fun s => s.setMask p body))

/-- SLOT_INFO in a frame. -/
def execSlotInfo (p : Port) (body : List Word) (s : State) : Host.Outcome State Fault Refusal :=
  onPart s (fun s => s.frame p .slotInfo body (fun s => s.slotInfo p body))

/-- STORE_INFO in a frame. -/
def execStoreInfo (p : Port) (body : List Word) (s : State) : Host.Outcome State Fault Refusal :=
  onPart s (fun s => s.frame p .storeInfo body (fun s => s.storeInfo p body))

end Sys2Proof.Machine
end

