-- ==== Sys2Proof/Machine/EnvelopeCommands.lean ====
section
/-! DEFINITION. ENV_OPEN (R109), ENV_DATA (R110), ENV_CLOSE (R113), ENV_DROP (R112): the network port's commands; from the metrology
port they are refused with RIGHTS at dispatch (R177). -/

namespace Sys2Proof.Machine

/-- Rights at dispatch: the network port alone (R177, R178). -/
def Part.networkOnly (s : Part) (p : Port) (c : Cmd) (run : Part → Part) : Part :=
  match p with
  | .mp => s.refuse (waiterOf .mp) c .rights
  | .np => run s

/-- ENV_OPEN at the network port (R109). The body is checked before ENV_BUSY (log entry 36, DEDUCED). -/
def Part.envOpen (s : Part) (body : List Word) : Part :=
  if body ≠ [] then s.refuse (waiterOf .np) .envOpen .badArg
  else if s.receiver.state = .free then
    ({ s with receiver := { Receiver.blank with state := .filling, fillTimer := some s.ms } }).answer
      (waiterOf .np) .envOpen .ok []
  else s.refuse (waiterOf .np) .envOpen .envBusy

/-- The bytes appended to a FILLING envelope (R110). -/
def Receiver.append (r : Receiver) (b : List Byte) (now : Count) : Receiver :=
  { r with bytes := r.bytes ++ b, fillTimer := some now }

/-- ENV_DATA at the network port (R110). The body and its count are checked before ENV_NONE and ENV_BUSY (log entry 36, DEDUCED). -/
def Part.envData (s : Part) (body : List Word) : Part :=
  match argEnvData body with
  | none => s.refuse (waiterOf .np) .envData .badArg
  | some b =>
    match s.receiver.state with
    | .free => s.refuse (waiterOf .np) .envData .envNone
    | .filling =>
      if s.receiver.bytes.length + b.length ≤ 75 then
        ({ s with receiver := s.receiver.append b s.ms }).answer (waiterOf .np) .envData .ok []
      else s.refuse (waiterOf .np) .envData .badArg
    | .checking | .committing | .verdict => s.refuse (waiterOf .np) .envData .envBusy

/-- ENV_DROP at the network port (R112). The body is checked before ENV_NONE and ENV_BUSY (log entry 36, DEDUCED). -/
def Part.envDrop (s : Part) (body : List Word) : Part :=
  if body ≠ [] then s.refuse (waiterOf .np) .envDrop .badArg
  else match s.receiver.state with
  | .free => s.refuse (waiterOf .np) .envDrop .envNone
  | .filling => ({ s with receiver := .blank }).answer (waiterOf .np) .envDrop .ok []
  | .checking | .committing | .verdict => s.refuse (waiterOf .np) .envDrop .envBusy

/-- Checks 1 to 6 (R116 to R118): the envelope, or the verdict of the first check that fails. -/
def Part.firstChecks (s : Part) (b : List Byte) : Except Code Envelope :=
  match parseEnvelope b with
  | none => .error .envForm
  | some e =>
    if envelopeCheck b = false then .error .envCheck
    else if destinationOk e.destination s.identity = false then .error .envNotOurs
    else if s.lifecycle = .blank then .error .envLifecycle
    else if s.slotCheckNow e = false then .error .envSlot
    else if s.transportOk e.tslot e.tgen = false then .error .envTransport
    else .ok e

/-- ENV_CLOSE at the network port (R113): CHECKING, checks 1 to 6 at once, then the unwrap job (R119). The body is checked before ENV_NONE
and ENV_BUSY (log entry 36, DEDUCED). -/
def Part.envClose (s : Part) (body : List Word) : Part :=
  if body ≠ [] then s.refuse (waiterOf .np) .envClose .badArg
  else match s.receiver.state with
  | .free => s.refuse (waiterOf .np) .envClose .envNone
  | .filling =>
    let s1 := { s with receiver := { s.receiver with state := .checking, fillTimer := none } }
    (match s.firstChecks s.receiver.bytes with
      | .error v => s1.giveVerdict v
      | .ok e => s1.placeTag .er (.unwrap e))
  | .checking | .committing | .verdict => s.refuse (waiterOf .np) .envClose .envBusy

/-- ENV_OPEN in a frame. -/
def execEnvOpen (p : Port) (body : List Word) (s : State) : Host.Outcome State Fault Refusal :=
  onPart s (fun s => s.frame p .envOpen body (fun s => s.networkOnly p .envOpen (fun s => s.envOpen body)))

/-- ENV_DATA in a frame. -/
def execEnvData (p : Port) (body : List Word) (s : State) : Host.Outcome State Fault Refusal :=
  onPart s (fun s => s.frame p .envData body (fun s => s.networkOnly p .envData (fun s => s.envData body)))

/-- ENV_CLOSE in a frame. -/
def execEnvClose (p : Port) (body : List Word) (s : State) : Host.Outcome State Fault Refusal :=
  onPart s (fun s => s.frame p .envClose body (fun s => s.networkOnly p .envClose (fun s => s.envClose body)))

/-- ENV_DROP in a frame. -/
def execEnvDrop (p : Port) (body : List Word) (s : State) : Host.Outcome State Fault Refusal :=
  onPart s (fun s => s.frame p .envDrop body (fun s => s.networkOnly p .envDrop (fun s => s.envDrop body)))

end Sys2Proof.Machine
end

