-- ==== Sys2Proof/Machine/LifecycleCommands.lean ====
section
/-! DEFINITION. SET_IDENTITY (R163), LOAD_PLAIN (R164, R165), UNLOAD (R166), SEAL (R167, R168). -/

namespace Sys2Proof.Machine

/-- An accepted LIFE change (R162): a class-4 LIFE job, and the projected lifecycle takes the new value. -/
def Part.acceptLife (s : Part) (p : Port) (l : Lifecycle) (id : Option Ident) : Part :=
  let c : LifeChange := { target := l, identity := id, waiter := waiterOf p, taken := false }
  ({ s with lifeChanges := s.lifeChanges ++ [c] }).place .life 4 .lifecycleMonitor []

/-- Check 1 of R163 on an identity: not all zero bytes, and its last 4 bytes not all FFh. -/
def identityForm (x : Ident) : Bool := x != 0 && x.extractLsb' 0 32 != (0xFFFFFFFF : BitVec 32)

/-- SET_IDENTITY (R163). -/
def Part.setIdentity (s : Part) (p : Port) (body : List Word) : Part :=
  match argIdentity body with
  | none => s.refuse (waiterOf p) .setIdentity .badArg
  | some x =>
    if identityForm x = false then s.refuse (waiterOf p) .setIdentity .badArg
    else if s.projectedLife ≠ .blank then s.refuse (waiterOf p) .setIdentity .lifecycle
    else if s.mode = .failed then s.refuse (waiterOf p) .setIdentity .store
    else if s.pfw then s.refuse (waiterOf p) .setIdentity .powerLow
    else s.acceptLife p .provisioned (some x)

/-- An accepted LOAD_PLAIN: the commit's three steps and the change, not yet ready (R165). The requester recorded of each step is the key store
controller, which holds the key and answers the command; R75 says "a commit" of the first two. DEDUCED (log entry 47). -/
def Part.acceptLoad (s : Part) (p : Port) (i : Fin 16) (a : Attrs) (k : Key) (c : Fin 48) (g : Nat) : Part :=
  let id := s.nextAge
  let m : Commit := { id := id, kind := .load, slot := i, gen := g, cell := some c, key := some k, verified := 0,
                      opened := false, retried := false, firstAge := id }
  let s1 := { s with commits := s.commits ++ [m] }
  let s2 := s1.place (.cellProgram c) 4 .keyStore [(id, 1)]
  let s3 := s2.place (.ceil i g) 4 .keyStore [(id, 2)]
  s3.accept i { commandChange (.load a g c id) p with ready := false } 4 .keyStore [(id, 3)]

/-- LOAD_PLAIN (R164). -/
def Part.loadPlain (s : Part) (p : Port) (body : List Word) : Part :=
  match argLoad body with
  | none => s.refuse (waiterOf p) .loadPlain .badArg
  | some (i, a, k) =>
    if s.projectedLife ≠ .provisioned then s.refuse (waiterOf p) .loadPlain .lifecycle
    else match loadSlotChecks (s.projected i) (s.slot i).zeroizing a with
    | some r => s.refuse (waiterOf p) .loadPlain r
    | none =>
      if s.mode ≠ .normal then s.refuse (waiterOf p) .loadPlain .store
      else match s.freeCell with
      | none => s.refuse (waiterOf p) .loadPlain .noCell
      | some c =>
        let g := (s.projected i).highest + 1
        if s.pfw then ((s.allocate c i g).setCell c .free).refuse (waiterOf p) .loadPlain .powerLow
        else (s.allocate c i g).acceptLoad p i a k c g

/-- UNLOAD (R166). The reply given at once holds the projected highest generation seen: log entry 38. -/
def Part.unload (s : Part) (p : Port) (body : List Word) : Part :=
  match (argSlot body).bind slotOf? with
  | none => s.refuse (waiterOf p) .unload .badArg
  | some i =>
    if s.projectedLife ≠ .provisioned then s.refuse (waiterOf p) .unload .lifecycle
    else if (s.slot i).zeroizing then s.refuse (waiterOf p) .unload .slotState
    else if (s.projected i).state = .unused then
      s.answer (waiterOf p) .unload .ok [.byte (BitVec.ofNat 8 i.val), word1 (s.projected i).highest]
    else if s.mode = .failed then s.refuse (waiterOf p) .unload .store
    else if s.pfw then s.refuse (waiterOf p) .unload .powerLow
    else s.accept i (commandChange .unload p) 4 .keyStore []

/-- Whether a slot's projected state is a TRANSPORT slot that can serve (R168). -/
def Part.canServe (s : Part) (t : Fin 16) : Bool :=
  (s.projected t).cls == some .transport && (s.projected t).state.holds && !(s.slot t).zeroizing

/-- The preconditions of the seal, against the projected state of every slot (R168). A ZEROIZING slot that an UNLOAD verified beneath it has
left without attributes names no transport slot and passes as UNUSED: DEDUCED (log entry 53). -/
def Part.sealReady (s : Part) : Bool :=
  allSlots.any (fun i => (s.projected i).cls == some .transport && (s.projected i).state == .ready && !(s.slot i).zeroizing) &&
  allSlots.all (fun i => match (s.projected i).attrs with
    | none => true
    | some a => s.canServe a.tslot) &&
  allSlots.all (fun i => (s.slot i).awaiting.all (fun c => match c.kind with
    | .load _ _ _ _ | .unload => false
    | .activate _ | .adopt _ _ | .renew _ _ _ _ _ | .cancel _ _ | .expiry | .zeroize | .correction => true))

/-- A first SEAL: the window opens or reopens (R167). -/
def Part.openSeal (s : Part) (p : Port) : Part :=
  ({ s with sealWindow := some (p, s.ms) }).answer (waiterOf p) .seal .ok [.byte Config.windowOpenByte]

/-- A second SEAL closes the window and is then checked (R168). -/
def Part.secondSeal (s : Part) (p : Port) : Part :=
  let s1 := { s with sealWindow := none }
  if s1.sealReady = false then s1.refuse (waiterOf p) .seal .sealPrecondition
  else if s1.mode = .failed then s1.refuse (waiterOf p) .seal .store
  else if s1.pfw then s1.refuse (waiterOf p) .seal .powerLow
  else s1.acceptLife p .sealed s1.projectedIdentity

/-- SEAL (R167). A body is refused before the lifecycle is checked, and leaves the seal window as it stands: log entry 36. -/
def Part.seal (s : Part) (p : Port) (body : List Word) : Part :=
  if body ≠ [] then s.refuse (waiterOf p) .seal .badArg
  else if s.projectedLife ≠ .provisioned then s.refuse (waiterOf p) .seal .lifecycle
  else match s.sealWindow with
  | none => s.openSeal p
  | some (q, _) => if q = p then s.openSeal p else s.secondSeal p

/-- SET_IDENTITY in a frame. -/
def execSetIdentity (p : Port) (body : List Word) (s : State) : Host.Outcome State Fault Refusal :=
  onPart s (fun s => s.frame p .setIdentity body (fun s => s.setIdentity p body))

/-- LOAD_PLAIN in a frame. -/
def execLoadPlain (p : Port) (body : List Word) (s : State) : Host.Outcome State Fault Refusal :=
  onPart s (fun s => s.frame p .loadPlain body (fun s => s.loadPlain p body))

/-- UNLOAD in a frame. -/
def execUnload (p : Port) (body : List Word) (s : State) : Host.Outcome State Fault Refusal :=
  onPart s (fun s => s.frame p .unload body (fun s => s.unload p body))

/-- SEAL in a frame. -/
def execSeal (p : Port) (body : List Word) (s : State) : Host.Outcome State Fault Refusal :=
  onPart s (fun s => s.frame p .seal body (fun s => s.seal p body))

end Sys2Proof.Machine
end

