-- ==== Sys2Proof/Machine/Lines.lean ====
section
/-! DEFINITION. The lines: PFW_ASSERTED (R85), PFW_RELEASED (R88), TAMP_LINE_CHANGE, TAMPER_EVENT and COVER_CLOSED (R169). -/

namespace Sys2Proof.Machine

/-- PFW is asserted: the engine is gated, and what waits is refused, stopped or kept (R42, R85 to R87). A line already asserted does not
change; in reset no block acts on it (R90). -/
def Part.pfwOn (s : Part) : Part :=
  if s.pfw then s
  else if s.phase = .held then { s with pfw := true }
  else ({ s with pfw := true }).powerSweep

/-- The engine, no longer gated, takes a job before the reservations are placed, or does not: a free choice of R88 (log entry 31). -/
def Part.maybeTakeJob (s : Part) : Part := if Config.jobFirst s.draws then (s.draw).takeJob else s.draw

/-- PFW is released (R88): the engine is no longer gated and the wanted reservations are placed, in either order; taken first, the job is
one of those that waited. During STARTING the reservations wait for the finish step (R106). A line already released stays so, and the
reservations are placed again (log entry 7). -/
def Part.pfwOff (s : Part) : Part :=
  let s1 := { s with pfw := false }
  if s.running then (if s.pfw then s1.maybeTakeJob else s1).placeAllWanted else s1

/-- Whether the line reads as the debounced cover state (R169). -/
def Cover.agrees (c : Cover) (active : Bool) : Bool :=
  match c with
  | .closed => !active
  | .opened => active

/-- How long a reading must stay (R169). -/
def debounceTime : Nat := 20

/-- The debounce of a line that reads as given at a moment (R169): it starts when the reading first differs from the cover state. -/
def nextDebounce (c : Cover) (active : Bool) (d : Option Count) (now : Count) : Option Count :=
  if c.agrees active then none
  else match d with
    | none => some now
    | some t => some t

/-- The TAMP line reads as given (R169). Before the start-up sample only the line itself is kept (R104). -/
def Part.tampLine (s : Part) (active : Bool) : Part :=
  match s.phase with
  | .held | .replayed => { s with tamp := active }
  | .sampled | .running => { s with tamp := active, debounce := nextDebounce s.cover active s.debounce s.ms }

/-- Whether the line has read differently for the debounce time (R169). -/
def Part.debounced (s : Part) : Bool :=
  match s.debounce with
  | none => false
  | some t => decide (debounceTime ≤ elapsed t s.ms)

/-- The millisecond count has reached a reading. In reset the timebase does not run (R91). -/
def Part.atTime (s : Part) (now : Count) : Part := if s.phase = .held then s else { s with ms := now }

/-- The debounced change from CLOSED to OPEN, if it is due: a tamper event (R169). -/
def Part.coverOpens (s : Part) : Part :=
  if s.running = true ∧ s.cover = .closed ∧ s.tamp = true ∧ s.debounced = true then s.tamper else s

/-- The debounced change from OPEN to CLOSED, if it is due, taken silently (R169). -/
def Part.coverCloses (s : Part) : Part :=
  if s.running = true ∧ s.cover = .opened ∧ s.tamp = false ∧ s.debounced = true then { s with cover := .closed, debounce := none }
  else s

/-- PFW_ASSERTED. -/
def execPfwAsserted (s : State) : Host.Outcome State Fault Refusal := onPart s (fun s => s.pfwOn)

/-- PFW_RELEASED. -/
def execPfwReleased (s : State) : Host.Outcome State Fault Refusal := onPart s (fun s => s.pfwOff)

/-- TAMP_LINE_CHANGE. -/
def execTampLineChange (active : Bool) (s : State) : Host.Outcome State Fault Refusal := onPart s (fun s => s.tampLine active)

/-- TAMPER_EVENT. -/
def execTamperEvent (now : Count) (s : State) : Host.Outcome State Fault Refusal :=
  onPart s (fun s => (s.atTime now).coverOpens)

/-- COVER_CLOSED. -/
def execCoverClosed (now : Count) (s : State) : Host.Outcome State Fault Refusal :=
  onPart s (fun s => (s.atTime now).coverCloses)

end Sys2Proof.Machine
end

