-- ==== Sys2Proof/Machine/Replay.lean ====
section
/-! DEFINITION. The replay (chapter 5): the header, scan, fact, binding and counters steps and the taking up of the lifecycle
(R93 to R103), as functions of what the store holds; the settling of the ring and the start-up reservations (R105, R106). -/

namespace Sys2Proof.Machine

/-! ### What the store holds -/

/-- A record read intact, with its place. -/
structure Found where
  page : Fin 8
  pos : Fin 31
  record : Record
deriving DecidableEq, Repr

/-- The intact records of one page, in position order (R95). -/
def StoredPage.found (g : StoredPage) (p : Fin 8) : List Found :=
  allPositions.filterMap (fun i => (readRecord g.records[i]).get?.map (fun r => { page := p, pos := i, record := r }))

/-- The intact records of every page, in whatever role (R95, R96). -/
def Store.found (t : Store) : List Found := allPages.flatMap (fun p => t.pages[p].found p)

/-- The sequence number a page's sequence stamp holds, if it is intact (R93). -/
def StoredPage.seq? (g : StoredPage) : Option Nat := (readStamp g.stamp).get?

/-- The erase count a page's wear stamp holds, if it is intact (R94). -/
def StoredPage.wear? (g : StoredPage) : Option Nat := (readStamp g.wear).get?

/-- Whether a stored item reads broken as a record. -/
def Reading.isBroken {α : Type} : Reading α → Bool
  | .broken => true
  | .erased | .intact _ => false

/-- The number of failed positions of a page (R95). -/
def StoredPage.failures (g : StoredPage) : Nat := (allPositions.filter (fun i => (readRecord g.records[i]).isBroken)).length

/-- The last used position: the highest that does not read erased, 0 with none (R95). -/
def StoredPage.lastUsed (g : StoredPage) : Nat :=
  allPositions.foldl (fun n i => if (readRecord g.records[i]).isErased then n else i.val + 1) 0

/-- The greatest number of a list, 0 for none. -/
def greatest (l : List Nat) : Nat := l.foldl max 0

/-! ### The header step (R93, R94) -/

/-- Whether an intact PAGEBAD record lists a page (R93). -/
def listedBad (l : List Found) (p : Fin 8) : Bool := l.any (fun f => f.record.body? == some (.pagebad p))

/-- The role a page takes as read, every erased page RESERVE for now and every ring page that is not RETIRING CLOSED (R93). -/
def StoredPage.role (g : StoredPage) (listed : Bool) : PageRole :=
  let bare := (readStamp g.stamp).isErased && !(readStamp g.wear).isBroken && g.lastUsed == 0
  match listed, g.seq? with
  | true, some _ => .retiring
  | true, none => .bad
  | false, some _ => .closed
  | false, none => if bare then .reserve else .closed

/-- The highest erase count of any intact wear stamp (R66). -/
def Store.highestWear (t : Store) : Nat := greatest (allPages.filterMap (fun p => t.pages[p].wear?))

/-- The page table entry of a page as read (R93 to R95). -/
def Store.pageEntry (t : Store) (l : List Found) (p : Fin 8) : Page :=
  let g := t.pages[p]
  let role := g.role (listedBad l p)
  { role := role, erases := g.wear?.getD t.highestWear, seq := g.seq?,
    used := if role.inRing then g.lastUsed else 0, failed := if role.inRing then min g.failures 1 else 0 }

/-- Sets the entries of the page table one by one. -/
def Part.readPages (s : Part) (l : List Found) : Part :=
  allPages.foldl (fun s p => s.modPage p (fun _ => s.store.pageEntry l p)) s

/-- The lowest-numbered erased page becomes SPARE (R93). -/
def Part.makeSpare (s : Part) : Part :=
  match s.reserve with
  | none => s
  | some p => s.modPage p (fun x => { x with role := .spare })

/-- The ring page with the greatest page sequence number (R94). -/
def Part.newestRing (s : Part) : Option (Fin 8) :=
  allPages.foldl (fun best p =>
    if (s.page p).role.inRing && (s.page p).seq.isSome then
      (match best with
        | none => some p
        | some q => if (s.page q).place < (s.page p).place then some p else some q)
    else best) none

/-- That page becomes HEAD, unless it is RETIRING (R94). -/
def Part.makeHead (s : Part) : Part :=
  match s.newestRing with
  | none => s
  | some p =>
    if (s.page p).role = .retiring then s
    else { s.modPage p (fun x => { x with role := .head }) with headStamped := true }

/-- The store mode and wear level of the usable pages found (R68, R69, R94). -/
def Part.countUsable (s : Part) : Part := { s with mode := modeOf s.usable, wear := s.wearLevel }

/-- The header step (R93, R94), with what the scan step reads of each page (R95). -/
def Part.headerStep (s : Part) (l : List Found) : Part :=
  let s1 := ((s.readPages l).makeSpare).makeHead.countUsable
  { s1 with nextPageSeq := greatest (allPages.filterMap (fun p => s.store.pages[p].seq?)) + 1 }

/-! ### The scan step (R95) -/

/-- A head with two or more failed positions is found bad (R95, R67). -/
def Part.headTest (s : Part) : Part :=
  match s.head with
  | none => s
  | some p =>
    if 2 ≤ s.store.pages[p].failures then
      let s1 := (s.modPage p (fun x => { x with role := .retiring })).countUsable
      if s1.mode = .failed then s1 else s1.place (.pagebad p) 4 .journal []
    else s

/-- The scan step (R95): the head test and the next record sequence number. -/
def Part.scanStep (s : Part) (l : List Found) : Part :=
  { s.headTest with nextSeq := greatest (l.map (fun f => f.record.seq)) + 1 }

/-! ### The fact step (R96, R97) -/

/-- Enters a record among the latest of each fact key (R57, R96). -/
def newest (l : List (FactKey × Found)) (f : Found) : List (FactKey × Found) :=
  match f.record.key? with
  | none => l
  | some k =>
    match l.find? (fun x => x.1 == k) with
    | none => l ++ [(k, f)]
    | some x => if x.2.record.seq < f.record.seq then l.filter (fun y => y.1 != k) ++ [(k, f)] else l

/-- The latest intact record of each fact key (R57, R96). -/
def latestRecords (l : List Found) : List (FactKey × Found) := l.foldl newest []

/-- What the latest intact record of a key says. -/
def latestBody (l : List (FactKey × Found)) (k : FactKey) : Option Body :=
  (l.find? (fun x => x.1 == k)).bind (fun x => x.2.record.body?)

/-- The persistent part of a slot as read (R96). -/
def readSlot (l : List (FactKey × Found)) (i : Fin 16) : Pers :=
  match latestBody l (.slot i) with
  | some (.slot _ p) => p
  | some (.ceil _ _ _ _) | some (.life _ _) | some (.tamper _) | some (.pagebad _) | none => .blank

/-- A RETIRING page without a latest intact record becomes BAD (R97). -/
def Part.retireTest (s : Part) (l : List (FactKey × Found)) : Part :=
  allPages.foldl (fun (s : Part) p =>
    if (s.page p).role = .retiring ∧ l.all (fun x => x.2.page != p) = true then
      s.modPage p (fun x => { x with role := .bad })
    else s) s

/-- The fact step (R96, R97): the fact index over the ring, the lifecycle, the identity and the tamper count. -/
def Part.factStep (s : Part) (l : List (FactKey × Found)) : Part :=
  let s1 := s.retireTest l
  let index : List Fact := (l.filter (fun x => (s1.page x.2.page).role.inRing)).map
    (fun x => { key := x.1, page := x.2.page, pos := x.2.pos, seq := x.2.record.seq })
  let s2 := { s1 with facts := index }
  let s3 := match latestBody l .life with
    | some (.life a id) => { s2 with lifecycle := a, identity := id }
    | some (.ceil _ _ _ _) | some (.slot _ _) | some (.tamper _) | some (.pagebad _) | none => s2
  match latestBody l .tamper with
  | some (.tamper n) => { s3 with tamperCount := n }
  | some (.ceil _ _ _ _) | some (.slot _ _) | some (.life _ _) | some (.pagebad _) | none => s3

/-! ### The binding step (R98 to R101) -/

/-- The candidates for a generation: the intact cells that carry its slot and number, with their keys (R98). -/
def Store.candidates (t : Store) (i : Fin 16) (g : Nat) : List (Fin 48 × Key) :=
  allCells.filterMap (fun c => match readCell t.cells[c] with
    | .intact k => if k.slot = slotByte i ∧ k.gen = g then some (c, k.key) else none
    | .erased | .broken => none)

/-- The cell bound to a generation, none when it is missing (R98). -/
def chosen : List (Fin 48 × Key) → Option (Fin 48)
  | [] => none
  | (c, k) :: rest => if rest.all (fun x => x.2 == k) then some c else none

/-- A listed generation with its cell, none when it is missing (R98). -/
def Store.bind (t : Store) (i : Fin 16) (g : Option Gen) : Option Gen :=
  match g with
  | none => none
  | some x => (chosen (t.candidates i x.num)).map (fun c => { num := x.num, cell := c })

/-- A slot with its generations bound and the missing ones dropped (R99, R100). -/
def Pers.bound (p : Pers) (cur out pen : Option Gen) : Pers :=
  if p.attrs.isNone then p
  else if p.current.isSome && cur.isNone then p.zeroize
  else
    let lostOut := p.outgoing.isSome && out.isNone
    { p with
      current := cur, outgoing := out, pending := pen,
      mpView := if lostOut then viewAhead p.mpView else p.mpView,
      npView := if lostOut then viewAhead p.npView else p.npView,
      onCommand := p.onCommand && pen.isSome }

/-- A slot as read, bound against the store's cells. -/
def Store.boundSlot (t : Store) (i : Fin 16) (p : Pers) : Pers :=
  p.bound (t.bind i p.current) (t.bind i p.outgoing) (t.bind i p.pending)

/-- Whether binding dropped a generation: a start-up correction (R101). -/
def dropped (p q : Pers) : Bool :=
  (p.current.isSome && q.current.isNone) || (p.outgoing.isSome && q.outgoing.isNone) || (p.pending.isSome && q.pending.isNone)

/-- Grace remaining at start-up: the full grace in a switch (R103). -/
def Pers.fullGrace (p : Pers) : Option Nat := if p.state.inSwitch then p.attrs.map Attrs.grace else none

/-- The slot record of one slot and the events its corrections raise (R99 to R101, R103). -/
def Part.bindSlot (s : Part) (l : List (FactKey × Found)) (i : Fin 16) : Part :=
  let p := readSlot l i
  let q := s.store.boundSlot i p
  let s1 := s.setSlot i { Slot.blank with applied := q, graceLeft := q.fullGrace }
  if p.current.isSome && q.current.isNone then s1.raiseBoth (fun e => e.addCellLost (slotBit i))
  else
    let moved (r : Port) : Bool := p.outgoing.isSome && q.outgoing.isNone && p.view r == some .outgoing
    let s2 := if moved .mp then s1.raise .mp (fun e => e.addForced (slotBit i)) else s1
    if moved .np then s2.raise .np (fun e => e.addForced (slotBit i)) else s2

/-- The entry of the cell table a cell takes (R98, R100). -/
def Part.cellEntry (s : Part) (c : Fin 48) : Cell :=
  match readCell s.store.cells[c] with
  | .erased => .free
  | .broken => .released none
  | .intact k =>
    match (slotOf? k.slot.toNat).filter (fun i => (s.slot i).applied.gens.any (fun g => g.num == k.gen && g.cell == c)) with
    | some i => .used i k.gen
    | none => .released (some (k.slot, k.gen))

/-- The cell table, and a class-5 erase for each RELEASED cell in cell order (R98). -/
def Part.bindCells (s : Part) : Part :=
  allCells.foldl (fun (s : Part) c =>
    match s.cellEntry c with
    | .released w => (s.setCell c (.released w)).place (.cellErase c) 5 .journal []
    | .free => s.setCell c .free
    | .used i g => s.setCell c (.used i g)
    | .bad => s.setCell c .bad) s

/-- The start-up correction of one slot: first on its awaiting list, with a class-4 SLOT job; in a FAILED store it is withdrawn
(R101). -/
def Part.correct (s : Part) (l : List (FactKey × Found)) (i : Fin 16) : Part :=
  if dropped (readSlot l i) (s.slot i).applied && decide (s.mode ≠ .failed) then
    s.accept i { kind := .correction, ready := true, taken := false, source := .part } 4 .keyStore []
  else s

/-- The binding step (R98 to R101). -/
def Part.bindingStep (s : Part) (l : List (FactKey × Found)) : Part :=
  let s1 := (allSlots.foldl (fun s i => s.bindSlot l i) s).bindCells
  allSlots.foldl (fun s i => s.correct l i) s1

/-! ### The counters step (R47, R102) -/

/-- The window of a generation at start-up, from its latest intact CEIL record if it has one (R47). -/
def startWindow (i : Fin 16) (g : Nat) (isPending : Bool) (ceil : Option (Nat × Nat)) (now : Count) : Window :=
  match ceil with
  | none =>
    { slot := i, gen := g, t := maxCounter, p := maxCounter, sCur := 16, grantTime := now, grantCounter := maxCounter,
      rateKnown := false, exhausted := true, reservation := .none, held := [] }
  | some (c, d) =>
    if isPending then
      { slot := i, gen := g, t := 1, p := c, sCur := d, grantTime := now, grantCounter := 1, rateKnown := false,
        exhausted := false, reservation := .none, held := [] }
    else
      { slot := i, gen := g, t := c, p := c, sCur := d, grantTime := now, grantCounter := c, rateKnown := false,
        exhausted := decide (c = maxCounter), reservation := if c = maxCounter then .none else .wanted, held := [] }

/-- The ceiling and stride of a generation's latest intact CEIL record (R96). -/
def readCeil (l : List (FactKey × Found)) (i : Fin 16) (g : Nat) : Option (Nat × Nat) :=
  match latestBody l (.ceil i g) with
  | some (.ceil _ _ c d) => some (c, d)
  | some (.slot _ _) | some (.life _ _) | some (.tamper _) | some (.pagebad _) | none => none

/-- The windows of a slot at start-up (R102): none for a TRANSPORT slot. -/
def Part.startWindows (s : Part) (l : List (FactKey × Found)) (i : Fin 16) : List Window :=
  let p := (s.slot i).applied
  if p.cls = some .transport then []
  else p.gens.map (fun g => startWindow i g.num (isGen p.pending g.num) (readCeil l i g.num) s.sec)

/-- A generation has one window. -/
def addWindow (l : List Window) (w : Window) : List Window :=
  if l.any (fun x => x.slot == w.slot && x.gen == w.gen) then l else l ++ [w]

/-- The counters step (R102). -/
def Part.countersStep (s : Part) (l : List (FactKey × Found)) : Part :=
  { s with windows := (allSlots.flatMap (fun i => s.startWindows l i)).foldl addWindow [] }

/-! ### The whole replay (R91) -/

/-- Everything in RAM in its reset state, the store, the lines and the free-value count kept (R90). -/
def Part.cleared (s : Part) : Part :=
  { Part.reset with powerCause := s.powerCause, supply := s.supply, rstn := s.rstn, pfw := s.pfw, tamp := s.tamp,
                    store := s.store, draws := s.draws }

/-- The five reading steps and the taking up of lifecycle and grace (R93 to R103). Nothing is written to the store (R91). -/
def Part.replay (s : Part) : Part :=
  let found := s.store.found
  let latest := latestRecords found
  let s1 := ({ s.cleared with phase := .replayed }).headerStep found
  (((s1.scanStep found).factStep latest).bindingStep latest).countersStep latest

/-! ### The end of the finish step (R105, R106) -/

/-- JC settles the ring (R105). In a FAILED store it places nothing (R60). -/
def Part.settleRing (s : Part) : Part :=
  if s.mode = .failed then s
  else match s.spare with
  | none => if s.noRoom then s.failStore else Part.reclaimOldest 8 s false
  | some p => if s.headFree then s else s.headSwitch p

/-- The last jobs of start-up: the ring's and then the wanted reservations (R106). -/
def Part.finishStep (s : Part) : Part := s.settleRing.placeAllWanted

end Sys2Proof.Machine
end

