-- ==== Sys2Proof/Machine/Resets.lean ====
section
/-! DEFINITION. The two resets and start-up: POWER_ON_RESET and PIN_RESET (R89, R90), START_UP (R91), START_UP_TAMPER_SAMPLE (R104),
LEAVE_STARTING (R107). -/

namespace Sys2Proof.Machine

/-- What the job in flight leaves in the store when a reset stops it (R89; log entries 13 and 15 for what stays open). -/
def Part.tear (s : Part) : Part :=
  match s.inFlight with
  | none => s
  | some f =>
    match f.work with
    | .record p i _ _ | .carry p i _ => s.storeAt p i .broken
    | .header p (some n) (some _) =>
      (if Config.tornWearDone s.draws then
        s.storePage p (fun g => { g with wear := encodeStamp wearMarker n, stamp := .broken })
      else s.storePage p (fun g => { g with wear := .broken })).draw
    | .header p (some _) none => s.storePage p (fun g => { g with wear := .broken })
    | .header p none (some _) => s.storePage p (fun g => { g with stamp := .broken })
    | .header _ none none => s
    | .pageErase p => (s.storePage p (fun g => g.halfErased s.draws)).draw
    | .cellProgram c _ _ _ | .cellErase c => s.storeCell c .broken

/-- The part is held in reset: the job in flight is torn and everything in RAM is lost (R89, R90). -/
def Part.enterReset (s : Part) : Part := s.tear.cleared

/-- The supply leaves or enters its operating range (R90). -/
def Part.supplyChange (s : Part) (inRange : Bool) : Part := { s.enterReset with supply := inRange, powerCause := true }

/-- RSTN is driven low, or released (R90). -/
def Part.pinChange (s : Part) (high : Bool) : Part :=
  if high then { s with rstn := true } else { s.enterReset with rstn := false }

/-- Start-up begins when the part is held in reset, the supply is in range and RSTN is high (R90, R91). -/
def Part.startUp (s : Part) : Part :=
  if s.phase = .held ∧ s.supply = true ∧ s.rstn = true then s.replay else s

/-- TAMP is sampled (R104): an active line that stays active through the debounce is a tamper event; otherwise the cover is CLOSED and the
line is watched from there. -/
def Part.sampleTamper (s : Part) (stays : Bool) : Part :=
  if s.phase = .replayed then
    if s.tamp ∧ stays = true then { s.tamper with phase := .sampled }
    else { s with cover := .closed, debounce := if s.tamp then some s.ms else none, phase := .sampled }
  else s

/-- Whether the finish step can end: TAMP has been sampled, or reads inactive, which is a sample without an event (R104). -/
def Part.mayLeave (s : Part) : Bool :=
  match s.phase with
  | .sampled => true
  | .replayed => !s.tamp
  | .held | .running => false

/-- A port as it leaves STARTING (R107): RESET, the events start-up raised for it, STORE where the mode is not NORMAL (R70); every kind
enabled; frame-error count 0. -/
def PortState.leave (x : PortState) (aside : Events) (cause : Cause) (mode : StoreMode) : PortState :=
  { x with events := { aside with reset := some cause, store := if mode = .normal then none else some mode },
           mask := 0x07FF, errors := 0 }

/-- The ports leave STARTING when the finish step has placed its jobs (R105 to R107). -/
def Part.leaveStarting (s : Part) : Part :=
  if s.mayLeave then
    let s1 := s.finishStep
    let cause := if s1.powerCause then Cause.power else .pin
    { s1 with mp := s1.mp.leave s1.mpAside cause s1.mode, np := s1.np.leave s1.npAside cause s1.mode,
              mpAside := .none, npAside := .none, phase := .running, powerCause := false }
  else s

/-- POWER_ON_RESET. -/
def execPowerOnReset (inRange : Bool) (s : State) : Host.Outcome State Fault Refusal := onPart s (fun s => s.supplyChange inRange)

/-- PIN_RESET. -/
def execPinReset (high : Bool) (s : State) : Host.Outcome State Fault Refusal := onPart s (fun s => s.pinChange high)

/-- START_UP. -/
def execStartUp (s : State) : Host.Outcome State Fault Refusal := onPart s (fun s => s.startUp)

/-- START_UP_TAMPER_SAMPLE. -/
def execStartUpTamperSample (stays : Bool) (s : State) : Host.Outcome State Fault Refusal :=
  onPart s (fun s => s.sampleTamper stays)

/-- LEAVE_STARTING. -/
def execLeaveStarting (s : State) : Host.Outcome State Fault Refusal := onPart s (fun s => s.leaveStarting)

end Sys2Proof.Machine
end

