-- ==== Sys2Proof/Machine/SlotCommands.lean ====
section
/-! DEFINITION. ACTIVATE (R130) and ADOPT (R134, R135). -/

namespace Sys2Proof.Machine

/-- The checks of R130 after the slot number, in order. -/
def Part.activateCheck (s : Part) (p : Port) (i : Fin 16) (g : Nat) : Option Code :=
  if p = .mp then some .rights
  else if (s.slot i).zeroizing ∨ (s.projected i).state ≠ .staged then some .slotState
  else if isGen (s.projected i).pending g = false then some .noGen
  else if s.mode = .failed then some .store
  else if s.pfw then some .powerLow
  else none

/-- ACTIVATE (R130, R131): accepted, its change is placed, ready at once, with the slot's SLOT job in class 4. From the metrology port too
the whole form check comes before RIGHTS (R177 orders the slot number alone): log entry 36. -/
def Part.activate (s : Part) (p : Port) (body : List Word) : Part :=
  match argSlotGen body with
  | none => s.refuse (waiterOf p) .activate .badArg
  | some (slot, g) =>
    match slotOf? slot with
    | none => s.refuse (waiterOf p) .activate .badArg
    | some i =>
      match s.activateCheck p i g with
      | some r => s.refuse (waiterOf p) .activate r
      | none => s.accept i (commandChange (.activate g) p) 4 .keyStore []

/-- Checks 2 to 4 of R134. A ZEROIZING slot without a class has no users and gives RIGHTS (log entry 52). -/
def Part.adoptCheck (s : Part) (p : Port) (i : Fin 16) (g : Nat) : Option Code :=
  let x := s.projected i
  if x.user p = false then some .rights
  else if (s.slot i).zeroizing ∨ x.state.holds = false then some .slotState
  else if isGen x.current g = false then some .noGen
  else none

/-- ADOPT (R134 to R136): answered at once when the projected view already names CURRENT, else accepted. DEDUCED (log entry 42): the CURRENT
number of the reply given at once is the projected one, which the command names, also where the applied one differs. -/
def Part.adopt (s : Part) (p : Port) (body : List Word) : Part :=
  match argSlotGen body with
  | none => s.refuse (waiterOf p) .adopt .badArg
  | some (slot, g) =>
    match slotOf? slot with
    | none => s.refuse (waiterOf p) .adopt .badArg
    | some i =>
      match s.adoptCheck p i g with
      | some r => s.refuse (waiterOf p) .adopt r
      | none =>
        if (s.projected i).view p = some .current then
          s.answer (waiterOf p) .adopt .ok
            [.byte (BitVec.ofNat 8 i.val), word1 g, .byte (viewCode ((s.slot i).applied.view p)), .byte (yesNo false)]
        else if s.mode = .failed then s.refuse (waiterOf p) .adopt .store
        else if s.pfw then s.refuse (waiterOf p) .adopt .powerLow
        else s.accept i (commandChange (.adopt p g) p) 4 .keyStore []

/-- ACTIVATE in a frame. -/
def execActivate (p : Port) (body : List Word) (s : State) : Host.Outcome State Fault Refusal :=
  onPart s (fun s => s.frame p .activate body (fun s => s.activate p body))

/-- ADOPT in a frame. -/
def execAdopt (p : Port) (body : List Word) (s : State) : Host.Outcome State Fault Refusal :=
  onPart s (fun s => s.frame p .adopt body (fun s => s.adopt p body))

end Sys2Proof.Machine
end

