-- ==== Sys2Proof/Machine/Steps.lean ====
section
/-! DEFINITION. The ends and beginnings of the store's and the cipher core's work: PE_TAKE_JOB (R78), the outcomes of the program engine's
jobs (R59, R51, R52, R62, R63), TE_TAKE_JOB (R147) and TE_JOB_DONE (R148). An outcome with no job of its kind in flight, and a taking that
finds nothing to take, change nothing (log entry 7). -/

namespace Sys2Proof.Machine

/-- PE_TAKE_JOB. -/
def execPeTakeJob (s : State) : Host.Outcome State Fault Refusal := onPart s (fun s => s.takeJob)

/-- RECORD_PROGRAM_DONE. -/
def execRecordProgramDone (ok : Bool) (s : State) : Host.Outcome State Fault Refusal := onPart s (fun s => s.recordDone ok)

/-- CARRY_FORWARD_DONE. -/
def execCarryForwardDone (ok : Bool) (s : State) : Host.Outcome State Fault Refusal := onPart s (fun s => s.carryDone ok)

/-- HEADER_PROGRAM_DONE. -/
def execHeaderProgramDone (wearOk seqOk : Bool) (s : State) : Host.Outcome State Fault Refusal :=
  onPart s (fun s => s.headerDone wearOk seqOk)

/-- PAGE_ERASE_DONE. -/
def execPageEraseDone (ok : Bool) (s : State) : Host.Outcome State Fault Refusal := onPart s (fun s => s.pageEraseDone ok)

/-- CELL_PROGRAM_DONE. -/
def execCellProgramDone (ok : Bool) (s : State) : Host.Outcome State Fault Refusal := onPart s (fun s => s.cellProgramDone ok)

/-- CELL_ERASE_DONE. -/
def execCellEraseDone (ok : Bool) (s : State) : Host.Outcome State Fault Refusal := onPart s (fun s => s.cellEraseDone ok)

/-- TE_TAKE_JOB. -/
def execTeTakeJob (s : State) : Host.Outcome State Fault Refusal := onPart s (fun s => s.takeTag)

/-- TE_JOB_DONE. -/
def execTeJobDone (s : State) : Host.Outcome State Fault Refusal := onPart s (fun s => s.doneTag)

end Sys2Proof.Machine
end

