-- ==== Sys2Proof/Machine/TagCommands.lean ====
section
/-! DEFINITION. QUICK_TAG (R149), QUICK_VERIFY (R150), CHAIN_OPEN (R152), CHAIN_DATA (R154), CHAIN_CLOSE (R155), CHAIN_DROP (R156). -/

namespace Sys2Proof.Machine

/-- QUICK_TAG (R149): form, the key checks of R19, and the counter unit. -/
def Part.quickTag (s : Part) (p : Port) (body : List Word) : Part :=
  match argQuickTag body with
  | none => s.refuse (waiterOf p) .quickTag .badArg
  | some (slot, m) =>
    match s.checkUse p slot 0 with
    | .error r => s.refuse (waiterOf p) .quickTag r
    | .ok (i, g) => s.tagRequest p i g (.quick m)

/-- QUICK_VERIFY (R150): form, the key checks of R19, and the port's quick job. The counter unit is not consulted (R29). -/
def Part.quickVerify (s : Part) (p : Port) (body : List Word) : Part :=
  match argQuickVerify body with
  | none => s.refuse (waiterOf p) .quickVerify .badArg
  | some (slot, named, c, t, m) =>
    match s.checkUse p slot named with
    | .error r => s.refuse (waiterOf p) .quickVerify r
    | .ok (i, g) => s.placeTag (clientOf p) (.quickVerify i g c t m)

/-- CHAIN_OPEN (R152): form, open chain, key checks; then the counter unit in TAG mode, the engine in VERIFY mode. -/
def Part.chainOpen (s : Part) (p : Port) (body : List Word) : Part :=
  match argChainOpen body with
  | none => s.refuse (waiterOf p) .chainOpen .badArg
  | some (slot, mode, n, named, c) =>
    if (s.te.context p).isSome then s.refuse (waiterOf p) .chainOpen .chainOpen
    else match s.checkUse p slot named with
    | .error r => s.refuse (waiterOf p) .chainOpen r
    | .ok (i, g) =>
      match mode with
      | .tag => s.tagRequest p i g (.chain n)
      | .verify => s.placeTag (clientOf p) (.chainOpen i g .verify c n)

/-- An accepted chain step sets the context's last activity and places the port's job (R154, R155). -/
def Part.acceptStep (s : Part) (p : Port) (j : TagJob) : Part :=
  ({ s with te := s.te.modContext p (fun x => { x with last := s.ms }) }).placeTag (clientOf p) j

/-- CHAIN_DATA (R154). An empty body is refused before the open chain is looked for: log entry 36. -/
def Part.chainData (s : Part) (p : Port) (body : List Word) : Part :=
  if body = [] then s.refuse (waiterOf p) .chainData .badArg
  else match s.te.context p with
  | none => s.refuse (waiterOf p) .chainData .chainNone
  | some x =>
    let m := 2 * body.length
    if x.taken + m ≤ x.n then s.acceptStep p (.chainData (wordBytes body))
    else if x.taken + m = x.n + 1 then s.acceptStep p (.chainData ((wordBytes body).take (m - 1)))
    else s.refuse (waiterOf p) .chainData .chainLength

/-- CHAIN_CLOSE (R155). DEDUCED (log entry 36): where more than one of its refusals holds, the first of CHAIN_NONE, BAD_ARG and CHAIN_LENGTH
is given, in the order R155 lists them. -/
def Part.chainClose (s : Part) (p : Port) (body : List Word) : Part :=
  match s.te.context p with
  | none => s.refuse (waiterOf p) .chainClose .chainNone
  | some x =>
    match argChainClose x.mode body with
    | none => s.refuse (waiterOf p) .chainClose .badArg
    | some t =>
      if x.taken = x.n then s.acceptStep p (.chainClose t) else s.refuse (waiterOf p) .chainClose .chainLength

/-- CHAIN_DROP (R156). A body is refused before the open chain is looked for: log entry 36. -/
def Part.chainDrop (s : Part) (p : Port) (body : List Word) : Part :=
  if body ≠ [] then s.refuse (waiterOf p) .chainDrop .badArg
  else match s.te.context p with
  | none => s.refuse (waiterOf p) .chainDrop .chainNone
  | some _ => ({ s with te := s.te.dropContext p }).answer (waiterOf p) .chainDrop .ok []

/-- QUICK_TAG in a frame. -/
def execQuickTag (p : Port) (body : List Word) (s : State) : Host.Outcome State Fault Refusal :=
  onPart s (fun s => s.frame p .quickTag body (fun s => s.quickTag p body))

/-- QUICK_VERIFY in a frame. -/
def execQuickVerify (p : Port) (body : List Word) (s : State) : Host.Outcome State Fault Refusal :=
  onPart s (fun s => s.frame p .quickVerify body (fun s => s.quickVerify p body))

/-- CHAIN_OPEN in a frame. -/
def execChainOpen (p : Port) (body : List Word) (s : State) : Host.Outcome State Fault Refusal :=
  onPart s (fun s => s.frame p .chainOpen body (fun s => s.chainOpen p body))

/-- CHAIN_DATA in a frame. -/
def execChainData (p : Port) (body : List Word) (s : State) : Host.Outcome State Fault Refusal :=
  onPart s (fun s => s.frame p .chainData body (fun s => s.chainData p body))

/-- CHAIN_CLOSE in a frame. -/
def execChainClose (p : Port) (body : List Word) (s : State) : Host.Outcome State Fault Refusal :=
  onPart s (fun s => s.frame p .chainClose body (fun s => s.chainClose p body))

/-- CHAIN_DROP in a frame. -/
def execChainDrop (p : Port) (body : List Word) (s : State) : Host.Outcome State Fault Refusal :=
  onPart s (fun s => s.frame p .chainDrop body (fun s => s.chainDrop p body))

end Sys2Proof.Machine
end

