-- ==== Sys2Proof/Machine/Timers.lean ====
section
/-! DEFINITION. The passing of time (R25): GRACE_COUNTDOWN_TICK (R10), GRACE_EXPIRY (R138), CHAIN_INACTIVITY (R157), ENV_FILL_TIMEOUT
(R111), SEAL_WINDOW_EXPIRY (R167). -/

namespace Sys2Proof.Machine

/-- Grace remaining after one second (R10): it stays at 0, and in ZEROIZING it stays where it stands. -/
def Slot.tick (x : Slot) : Slot := if x.zeroizing then x else { x with graceLeft := x.graceLeft.map (fun n => n - 1) }

/-- One step of the second count (R10, R25): every slot with grace remaining counts down while the part runs. In reset the timebase does
not run (R91). -/
def Part.second (s : Part) : Part :=
  match s.phase with
  | .held => s
  | .replayed | .sampled => { s with sec := s.sec + 1 }
  | .running => allSlots.foldl (fun s i => s.modSlot i Slot.tick) { s with sec := s.sec + 1 }

/-- The grace expiry of a slot whose grace remaining stands at 0 (R138), unless one is awaiting. -/
def Part.graceExpiry (s : Part) (i : Fin 16) : Part := if s.running then s.expiryTest i else s

/-- The time without an accepted step after which a chain is aborted (R157), in ms. -/
def chainTime : Nat := 500

/-- A port's chain is aborted for inactivity, if it is due (R157). -/
def Part.chainTimeout (s : Part) (p : Port) : Part :=
  match s.te.context p with
  | none => s
  | some x => if s.running = true ∧ chainTime ≤ elapsed x.last s.ms then s.abortChain p true else s

/-- The time without an accepted ENV_DATA after which an envelope is aborted (R111), in ms. -/
def fillTime : Nat := 2000

/-- A FILLING envelope is aborted, if it is due (R111). -/
def Part.fillTimeout (s : Part) : Part :=
  match s.receiver.fillTimer with
  | none => s
  | some t =>
    if s.running = true ∧ s.receiver.state = .filling ∧ fillTime ≤ elapsed t s.ms then
      ({ s with receiver := .blank }).raise .np Events.addEnvAbort
    else s

/-- How long a seal window stands open (R167), in ms. -/
def sealTime : Nat := 10000

/-- The seal window closes, if it is due (R167). -/
def Part.sealTimeout (s : Part) : Part :=
  match s.sealWindow with
  | none => s
  | some (_, t) => if s.running = true ∧ sealTime ≤ elapsed t s.ms then { s with sealWindow := none } else s

/-- GRACE_COUNTDOWN_TICK. -/
def execGraceCountdownTick (s : State) : Host.Outcome State Fault Refusal := onPart s (fun s => s.second)

/-- GRACE_EXPIRY. -/
def execGraceExpiry (slot : Fin 16) (s : State) : Host.Outcome State Fault Refusal := onPart s (fun s => s.graceExpiry slot)

/-- CHAIN_INACTIVITY. -/
def execChainInactivity (p : Port) (now : Count) (s : State) : Host.Outcome State Fault Refusal :=
  onPart s (fun s => (s.atTime now).chainTimeout p)

/-- ENV_FILL_TIMEOUT. -/
def execEnvFillTimeout (now : Count) (s : State) : Host.Outcome State Fault Refusal :=
  onPart s (fun s => (s.atTime now).fillTimeout)

/-- SEAL_WINDOW_EXPIRY. -/
def execSealWindowExpiry (now : Count) (s : State) : Host.Outcome State Fault Refusal :=
  onPart s (fun s => (s.atTime now).sealTimeout)

end Sys2Proof.Machine
end

