-- ==== Sys2Proof/Machine/Transfers.lean ====
section
/-! DEFINITION. The transfers of a port: SELECT_ASSERTED and TRANSFER_JUDGED (R173), PORT_RESTART (R179). -/

namespace Sys2Proof.Machine

/-- A dispatched command handed to the block that owns it (R177, R185). -/
def Part.command (p : Port) (c : Cmd) (body : List Word) (s : Part) : Part :=
  match c with
  | .nop => s
  | .statusRead => s.statusRead p body
  | .setMask => s.setMask p body
  | .slotInfo => s.slotInfo p body
  | .storeInfo => s.storeInfo p body
  | .quickTag => s.quickTag p body
  | .quickVerify => s.quickVerify p body
  | .chainOpen => s.chainOpen p body
  | .chainData => s.chainData p body
  | .chainClose => s.chainClose p body
  | .chainDrop => s.chainDrop p body
  | .envOpen => s.networkOnly p .envOpen (fun s => s.envOpen body)
  | .envData => s.networkOnly p .envData (fun s => s.envData body)
  | .envClose => s.networkOnly p .envClose (fun s => s.envClose body)
  | .envDrop => s.networkOnly p .envDrop (fun s => s.envDrop body)
  | .activate => s.activate p body
  | .adopt => s.adopt p body
  | .setIdentity => s.setIdentity p body
  | .loadPlain => s.loadPlain p body
  | .unload => s.unload p body
  | .seal => s.seal p body

/-- Select is asserted: the transfer's offer is fixed (R173). -/
def Part.beginTransfer (s : Part) (p : Port) : Part :=
  let o := s.offerNow p
  s.modPort p (fun x => { x with offer := some o })

/-- Select is released after the complete words given; as many were clocked out meanwhile, `Offer.clockedOut` of the offer (R173). No
transfer in progress: no effect (log entry 7). -/
def Part.endTransfer (s : Part) (p : Port) (words : List Word) : Part :=
  match (s.port p).offer with
  | none => s
  | some o => s.judge p o words (fun c body s => s.command p c body)

/-- A whole transfer of the one word FFFFh (R179); in reset and during STARTING it is discarded (R90, R92). -/
def Part.restartTransfer (s : Part) (p : Port) : Part :=
  if s.running = false then s.closeTransfer p
  else
    let o := s.offerNow p
    (((s.closeTransfer p).settle p o.reply 1 false).1).restart p

/-- SELECT_ASSERTED. -/
def execSelectAsserted (p : Port) (s : State) : Host.Outcome State Fault Refusal := onPart s (fun s => s.beginTransfer p)

/-- TRANSFER_JUDGED. -/
def execTransferJudged (p : Port) (words : List Word) (s : State) : Host.Outcome State Fault Refusal :=
  onPart s (fun s => s.endTransfer p words)

/-- PORT_RESTART. -/
def execPortRestart (p : Port) (s : State) : Host.Outcome State Fault Refusal := onPart s (fun s => s.restartTransfer p)

end Sys2Proof.Machine
end

