-- ==== Sys2Proof/Machine/Dispatch.lean ====
section
/-! DEFINITION. Which meaning each command has: one arm per constructor of `Instr`. -/

namespace Sys2Proof.Machine

/-- A command's effect on everything but the queue of waiting commands. -/
def exec (i : Instr) (s : State) : Host.Outcome State Fault Refusal :=
  match i with
  | .nop p body => Sys2Proof.Machine.execNop p body s
  | .statusRead p body => Sys2Proof.Machine.execStatusRead p body s
  | .setMask p body => Sys2Proof.Machine.execSetMask p body s
  | .slotInfo p body => Sys2Proof.Machine.execSlotInfo p body s
  | .storeInfo p body => Sys2Proof.Machine.execStoreInfo p body s
  | .quickTag p body => Sys2Proof.Machine.execQuickTag p body s
  | .quickVerify p body => Sys2Proof.Machine.execQuickVerify p body s
  | .chainOpen p body => Sys2Proof.Machine.execChainOpen p body s
  | .chainData p body => Sys2Proof.Machine.execChainData p body s
  | .chainClose p body => Sys2Proof.Machine.execChainClose p body s
  | .chainDrop p body => Sys2Proof.Machine.execChainDrop p body s
  | .envOpen p body => Sys2Proof.Machine.execEnvOpen p body s
  | .envData p body => Sys2Proof.Machine.execEnvData p body s
  | .envClose p body => Sys2Proof.Machine.execEnvClose p body s
  | .envDrop p body => Sys2Proof.Machine.execEnvDrop p body s
  | .activate p body => Sys2Proof.Machine.execActivate p body s
  | .adopt p body => Sys2Proof.Machine.execAdopt p body s
  | .setIdentity p body => Sys2Proof.Machine.execSetIdentity p body s
  | .loadPlain p body => Sys2Proof.Machine.execLoadPlain p body s
  | .unload p body => Sys2Proof.Machine.execUnload p body s
  | .seal p body => Sys2Proof.Machine.execSeal p body s
  | .selectAsserted p => Sys2Proof.Machine.execSelectAsserted p s
  | .transferJudged p words => Sys2Proof.Machine.execTransferJudged p words s
  | .portRestart p => Sys2Proof.Machine.execPortRestart p s
  | .powerOnReset inRange => Sys2Proof.Machine.execPowerOnReset inRange s
  | .pinReset high => Sys2Proof.Machine.execPinReset high s
  | .startUp => Sys2Proof.Machine.execStartUp s
  | .startUpTamperSample stays => Sys2Proof.Machine.execStartUpTamperSample stays s
  | .leaveStarting => Sys2Proof.Machine.execLeaveStarting s
  | .pfwAsserted => Sys2Proof.Machine.execPfwAsserted s
  | .pfwReleased => Sys2Proof.Machine.execPfwReleased s
  | .tampLineChange active => Sys2Proof.Machine.execTampLineChange active s
  | .tamperEvent now => Sys2Proof.Machine.execTamperEvent now s
  | .coverClosed now => Sys2Proof.Machine.execCoverClosed now s
  | .graceCountdownTick => Sys2Proof.Machine.execGraceCountdownTick s
  | .graceExpiry slot => Sys2Proof.Machine.execGraceExpiry slot s
  | .chainInactivity p now => Sys2Proof.Machine.execChainInactivity p now s
  | .envFillTimeout now => Sys2Proof.Machine.execEnvFillTimeout now s
  | .sealWindowExpiry now => Sys2Proof.Machine.execSealWindowExpiry now s
  | .peTakeJob => Sys2Proof.Machine.execPeTakeJob s
  | .recordProgramDone ok => Sys2Proof.Machine.execRecordProgramDone ok s
  | .carryForwardDone ok => Sys2Proof.Machine.execCarryForwardDone ok s
  | .headerProgramDone wearOk seqOk => Sys2Proof.Machine.execHeaderProgramDone wearOk seqOk s
  | .pageEraseDone ok => Sys2Proof.Machine.execPageEraseDone ok s
  | .cellProgramDone ok => Sys2Proof.Machine.execCellProgramDone ok s
  | .cellEraseDone ok => Sys2Proof.Machine.execCellEraseDone ok s
  | .teTakeJob => Sys2Proof.Machine.execTeTakeJob s
  | .teJobDone => Sys2Proof.Machine.execTeJobDone s

end Sys2Proof.Machine
end

