-- ==== Sys2Proof/Machine/Step.lean ====
section
/-! DEFINITION. One step: the command at the front of the queue, or, with none waiting, a millisecond of the timebase. -/

namespace Sys2Proof.Machine

/-- One millisecond of the timebase (R25), which does not run in reset (R91). -/
def Part.millisecond (s : Part) : Part := if s.phase = .held then s else { s with ms := s.ms + 1 }

/-- The command at the front of the queue acts on the state with the queue's rest. With no command waiting one millisecond passes
(log entry 5). -/
def step (s : State) : Host.Outcome State Fault Refusal :=
  match s.pending with
  | [] => .next { s with toPart := s.toPart.millisecond }
  | c :: rest => exec c { s with pending := rest }

/-- `s` with the command a word spells by the table's bits put at the front of its queue; no word spells one (log entry 4). -/
def State.withFetchWord (s : State) (nbits w : Nat) : State :=
  match decodeTableWord nbits w with
  | none => s
  | some c => { s with pending := c :: s.pending }

end Sys2Proof.Machine
end

