-- ==== Sys2Proof/Safety.lean ====
section
/-! DEFINITION. What counts as a safe run, and the words the statements use: the command a frame carries, a port that takes a command, a port
whose reply was delivered or lost, the bound that the windows keep, what a head switch, a reclaim and a fall of the store mode leave. -/

namespace Sys2Proof

/-- The port, the code and the body of a command of the code table (R185). -/
def Instr.command? : Instr → Option (Port × Machine.Cmd × List Word)
  | .nop p b => some (p, .nop, b)
  | .statusRead p b => some (p, .statusRead, b)
  | .setMask p b => some (p, .setMask, b)
  | .slotInfo p b => some (p, .slotInfo, b)
  | .storeInfo p b => some (p, .storeInfo, b)
  | .quickTag p b => some (p, .quickTag, b)
  | .quickVerify p b => some (p, .quickVerify, b)
  | .chainOpen p b => some (p, .chainOpen, b)
  | .chainData p b => some (p, .chainData, b)
  | .chainClose p b => some (p, .chainClose, b)
  | .chainDrop p b => some (p, .chainDrop, b)
  | .envOpen p b => some (p, .envOpen, b)
  | .envData p b => some (p, .envData, b)
  | .envClose p b => some (p, .envClose, b)
  | .envDrop p b => some (p, .envDrop, b)
  | .activate p b => some (p, .activate, b)
  | .adopt p b => some (p, .adopt, b)
  | .setIdentity p b => some (p, .setIdentity, b)
  | .loadPlain p b => some (p, .loadPlain, b)
  | .unload p b => some (p, .unload, b)
  | .seal p b => some (p, .seal, b)
  | .selectAsserted _ | .transferJudged _ _ | .portRestart _ => none
  | .powerOnReset _ | .pinReset _ | .startUp | .startUpTamperSample _ | .leaveStarting => none
  | .pfwAsserted | .pfwReleased | .tampLineChange _ | .tamperEvent _ | .coverClosed _ => none
  | .graceCountdownTick | .graceExpiry _ | .chainInactivity _ _ | .envFillTimeout _ | .sealWindowExpiry _ => none
  | .peTakeJob | .recordProgramDone _ | .carryForwardDone _ | .headerProgramDone _ _ | .pageEraseDone _ => none
  | .cellProgramDone _ | .cellEraseDone _ | .teTakeJob | .teJobDone => none

/-- Whether a command is the outcome of a program or an erase (R82). -/
def Instr.isOutcome : Instr → Bool
  | .recordProgramDone _ | .carryForwardDone _ | .headerProgramDone _ _ | .pageEraseDone _ | .cellProgramDone _
  | .cellEraseDone _ => true
  | .nop _ _ | .statusRead _ _ | .setMask _ _ | .slotInfo _ _ | .storeInfo _ _ => false
  | .quickTag _ _ | .quickVerify _ _ | .chainOpen _ _ | .chainData _ _ | .chainClose _ _ | .chainDrop _ _ => false
  | .envOpen _ _ | .envData _ _ | .envClose _ _ | .envDrop _ _ | .activate _ _ | .adopt _ _ => false
  | .setIdentity _ _ | .loadPlain _ _ | .unload _ _ | .seal _ _ => false
  | .selectAsserted _ | .transferJudged _ _ | .portRestart _ => false
  | .powerOnReset _ | .pinReset _ | .startUp | .startUpTamperSample _ | .leaveStarting => false
  | .pfwAsserted | .pfwReleased | .tampLineChange _ | .tamperEvent _ | .coverClosed _ => false
  | .graceCountdownTick | .graceExpiry _ | .chainInactivity _ _ | .envFillTimeout _ | .sealWindowExpiry _ => false
  | .peTakeJob | .teTakeJob | .teJobDone => false

/-- Whether a command is a reset or the replay that follows one (R90, R91). -/
def Instr.isReset : Instr → Bool
  | .powerOnReset _ | .pinReset _ | .startUp => true
  | .nop _ _ | .statusRead _ _ | .setMask _ _ | .slotInfo _ _ | .storeInfo _ _ => false
  | .quickTag _ _ | .quickVerify _ _ | .chainOpen _ _ | .chainData _ _ | .chainClose _ _ | .chainDrop _ _ => false
  | .envOpen _ _ | .envData _ _ | .envClose _ _ | .envDrop _ _ | .activate _ _ | .adopt _ _ => false
  | .setIdentity _ _ | .loadPlain _ _ | .unload _ _ | .seal _ _ => false
  | .selectAsserted _ | .transferJudged _ _ | .portRestart _ => false
  | .startUpTamperSample _ | .leaveStarting => false
  | .pfwAsserted | .pfwReleased | .tampLineChange _ | .tamperEvent _ | .coverClosed _ => false
  | .graceCountdownTick | .graceExpiry _ | .chainInactivity _ _ | .envFillTimeout _ | .sealWindowExpiry _ => false
  | .peTakeJob | .recordProgramDone _ | .carryForwardDone _ | .headerProgramDone _ _ | .pageEraseDone _ => false
  | .cellProgramDone _ | .cellEraseDone _ | .teTakeJob | .teJobDone => false

namespace Machine

/-- The machine with its part replaced and the same commands waiting. -/
def State.withPart (s : State) (t : Part) : State := { s with toPart := t }

/-! ### Ports that take commands -/

/-- The port takes a command: the part runs and the port holds neither a command in flight nor a reply (IDLE, R177). -/
def Part.takes (s : Part) (p : Port) : Prop := s.phase = .running ∧ (s.port p).job = .idle

/-- A port after a frame whose command waits (R177). -/
def PortState.waitingOn (x : PortState) (c : Cmd) : PortState :=
  { x with job := .waiting c, offer := none, ferr := false, busyref := false, lost := false }

/-- A port after a frame whose command was answered at once with these words (R177). -/
def PortState.answered (x : PortState) (w : List Word) : PortState :=
  { x with job := .ready { words := w, maker := .plain }, offer := none, ferr := false, busyref := false, lost := false }

/-- The part after a frame whose command waits. -/
def Part.waitingOn (s : Part) (p : Port) (c : Cmd) : Part := s.setPort p ((s.port p).waitingOn c)

/-- The part after a frame whose command was answered at once. -/
def Part.answered (s : Part) (p : Port) (w : List Word) : Part := s.setPort p ((s.port p).answered w)

/-- The part with LOST shown on a port (R174, R175). -/
def Part.showLost (s : Part) (p : Port) : Part := s.setPort p { s.port p with lost := true }

/-- The port with its reply buffer emptied and its transfer over; a verdict's envelope buffer is FREE (R114, R175). -/
def Part.emptied (s : Part) (p : Port) (r : Reply) : Part :=
  ({ s with receiver := if r.maker = .verdict then .blank else s.receiver } : Part).setPort p
    { s.port p with job := .idle, offer := none }

/-- The port with a reply delivered: the buffer is emptied, and a STATUS_READ reply without PEEK acknowledges what it showed (R175, R181). -/
def Part.delivered (s : Part) (p : Port) (r : Reply) : Part :=
  match r.maker with
  | .plain | .verdict => s.emptied p r
  | .status shown => s.setPort p (({ s.port p with job := .idle, offer := none } : PortState).acknowledge shown)

/-! ### Keys and tag requests (R19, R20, R149, R150, R152) -/

/-- The checks of R19 pass for the port's own view, and it names generation `g` (R20). -/
def Part.usesKey (s : Part) (p : Port) (i : Fin 16) (g : Nat) : Prop :=
  s.lifecycle ≠ .blank ∧ (s.slot i).applied.user p = true ∧ (s.slot i).state.holds = true ∧
  ∃ v x, (s.slot i).applied.view p = some v ∧ (s.slot i).applied.viewed v = some x ∧ x.num = g

/-- The checks of R19 pass for a VERIFY that names `named`, and the generation used is `g` (R20). -/
def Part.verifiesWith (s : Part) (p : Port) (i : Fin 16) (named : Word) (g : Nat) : Prop :=
  (named = 0 ∧ s.usesKey p i g) ∨
  (named ≠ 0 ∧ named.toNat = g ∧ s.lifecycle ≠ .blank ∧ (s.slot i).applied.user p = true ∧ (s.slot i).state.holds = true ∧
    (s.slot i).applied.holdsUsable g = true)

/-- The window of a generation in a list of windows. -/
def windowIn (l : List Window) (i : Fin 16) (g : Nat) : Option Window := l.find? (fun w => w.slot == i && w.gen == g)

/-- The two TAG requests (R27): a QUICK_TAG and a CHAIN_OPEN in TAG mode, with the command, the job a counter value places and the
request a window holds. -/
inductive TagRow (s : Part) (p : Port) (i : Fin 16) (g : Nat) : Instr → Cmd → (Nat → TagJob) → HeldRequest → Prop where
  | quick (m : List Byte) (h : m.length ≤ 64) :
    TagRow s p i g (.quickTag p (pair (slotByte i) (BitVec.ofNat 8 m.length) :: packBytes m)) .quickTag
      (fun k => .quickTag i g k m) (.quick m)
  | chain (n : Word) (h : n.toNat ≤ 4096) (none : s.te.context p = none) :
    TagRow s p i g (.chainOpen p [pair (slotByte i) 1, n]) .chainOpen (fun k => .chainOpen i g .tag k n.toNat) (.chain n.toNat)

/-- The two requests to verify (R29): a QUICK_VERIFY and a CHAIN_OPEN in VERIFY mode, with the command and the job placed. -/
inductive VerifyRow (s : Part) (p : Port) (i : Fin 16) (named : Word) (g : Nat) : Instr → Cmd → TagJob → Prop where
  | quick (m : List Byte) (h : m.length ≤ 60) (c1 c0 t3 t2 t1 t0 : Word) :
    VerifyRow s p i named g
      (.quickVerify p (pair (slotByte i) (BitVec.ofNat 8 m.length) :: named :: c1 :: c0 :: t3 :: t2 :: t1 :: t0 :: packBytes m))
      .quickVerify (.quickVerify i g (c1.toNat * 65536 + c0.toNat) (t3 ++ t2 ++ t1 ++ t0) m)
  | chain (n c1 c0 : Word) (h : n.toNat ≤ 4096) (none : s.te.context p = none) :
    VerifyRow s p i named g (.chainOpen p [pair (slotByte i) 2, n, named, c1, c0]) .chainOpen
      (.chainOpen i g .verify (c1.toNat * 65536 + c0.toNat) n.toNat)

/-! ### Windows (R28) -/

/-- T has not passed P, or nothing has been issued; P has not passed the largest counter. -/
def Window.within (w : Window) : Prop := (w.t ≤ w.p ∨ w.t = 1) ∧ w.p ≤ maxCounter

/-- A reservation's record in flight carries a ceiling that is not below the window's P and within the counter's range. -/
def InFlight.covers (f : InFlight) (w : Window) : Prop :=
  match f.work with
  | .record _ _ _ (.ceil i g c _) => f.job.commits = [] → w.slot = i → w.gen = g → w.p ≤ c ∧ c ≤ maxCounter
  | _ => True

/-- Each generation has one window, every window is within its bound, and a reservation in flight covers it (R28). -/
def Part.windowsBounded (s : Part) : Prop :=
  (s.windows.map (fun w => (w.slot, w.gen))).Nodup ∧
  ∀ w ∈ s.windows, w.within ∧ ∀ f, s.inFlight = some f → f.covers w

/-! ### What the store says (R57, R98) -/

/-- A record found in the store is the latest intact record of a fact key (R57). -/
def latestIn (l : List Found) (k : FactKey) (f : Found) : Prop :=
  f ∈ l ∧ f.record.key? = some k ∧ ∀ g ∈ l, g.record.key? = some k → g = f ∨ g.record.seq < f.record.seq

/-- No intact record has a fact key. -/
def unrecorded (l : List Found) (k : FactKey) : Prop := ∀ f ∈ l, f.record.key? ≠ some k

/-- A cell holds the key of a slot's generation, and is the lowest-numbered of those that do, all with the same key (R98). -/
def Store.keyCell (t : Store) (i : Fin 16) (n : Nat) (c : Fin 48) : Prop :=
  ∃ k : Key, readCell t.cells[c] = .intact { slot := slotByte i, gen := n, key := k } ∧
    ∀ (d : Fin 48) (k' : Key), readCell t.cells[d] = .intact { slot := slotByte i, gen := n, key := k' } → k' = k ∧ c ≤ d

/-- What becomes of a listed generation at the binding step: it keeps its number and takes its cell, or is missing (R98). -/
def Store.binds (t : Store) (i : Fin 16) (read bound : Option Gen) : Prop :=
  match read with
  | none => bound = none
  | some x => (∃ c, t.keyCell i x.num c ∧ bound = some { num := x.num, cell := c }) ∨
      ((∀ c, ¬ t.keyCell i x.num c) ∧ bound = none)

/-! ### What the job in flight may write (R79) -/

/-- The page a job in flight writes or erases. -/
def Work.page? : Work → Option (Fin 8)
  | .record p _ _ _ | .carry p _ _ | .header p _ _ | .pageErase p => some p
  | .cellProgram _ _ _ _ | .cellErase _ => none

/-- The cell a job in flight writes or erases. -/
def Work.cell? : Work → Option (Fin 48)
  | .cellProgram c _ _ _ | .cellErase c => some c
  | .record _ _ _ _ | .carry _ _ _ | .header _ _ _ | .pageErase _ => none

/-- The cell a change brings its key in. -/
def ChangeKind.cell? : ChangeKind → Option (Fin 48)
  | .load _ _ c _ | .renew _ _ _ c _ => some c
  | .unload | .activate _ | .adopt _ _ | .cancel _ _ | .expiry | .zeroize | .correction => none

/-- A listed generation as a SLOT record carries it, without its cell (R6). -/
def Gen.bare (g : Gen) : Gen := { g with cell := 0 }

/-! ### Stopped commits (R83) -/

/-- A commit does not run, and no job on the list is a step of it (R83). -/
def Part.commitGone (t : Part) (n : Nat) : Prop := t.commit n = none ∧ ∀ j ∈ t.jobs, ∀ q, (n, q) ∉ j.commits

/-! ### The ring (R54, R61 to R63) -/

/-- At most one page is HEAD. -/
def Part.oneHead (s : Part) : Prop := ∀ p q, (s.page p).role = .head → (s.page q).role = .head → p = q

/-- The reclaim of page `o` stands on the work list (R62): a carry-forward step for every intact record of the page where `carries` holds,
and, for a page that is not RETIRING, its erase and its wear stamp. -/
def Part.reclaimPlaced (t : Part) (o : Fin 8) (carries : Prop) : Prop :=
  t.reclaim = some o ∧
  (carries → ∀ (k : Fin 31) (r : Record), readRecord t.store.pages[o].records[k] = .intact r → t.onList (.carry o k) = true) ∧
  ((t.page o).role = .closed → t.onList (.pageErase o) = true ∧ t.onList (.header o .wear) = true)

/-- What the end of the last carry-forward step of a RETIRING page `q` leaves of `s` (R63): the page is BAD without an erase, its content as
it was, out of the fact index and with no erase or wear stamp placed; the reclaim moves on to the next oldest page. -/
def Part.pageRetired (s t : Part) (q : Fin 8) : Prop :=
  (t.page q).role = .bad ∧ t.store.pages[q] = s.store.pages[q] ∧ (∀ f ∈ t.facts, f.page ≠ q) ∧
  (s.onList (.pageErase q) = false → t.onList (.pageErase q) = false) ∧
  (s.onList (.header q .wear) = false → t.onList (.header q .wear) = false) ∧
  ((s.pageGone q).oldest = none → t.reclaim = none) ∧
  (∀ o, (s.pageGone q).oldest = some o → (s.page o).role = .closed → t.reclaimPlaced o (t.pageLive o = true))

/-- What a head switch of `s` to the spare page `sp` leaves in `t` (R61): the spare is head with the next page sequence number and no used
position, its stamps are placed, both for a page without a wear stamp; the old head is CLOSED; the lowest RESERVE page is SPARE, or, with
none and no reclaim under way, the reclaim of the oldest page is placed. -/
def Part.headSwitched (s t : Part) (sp : Fin 8) : Prop :=
  t.page sp = { s.page sp with role := .head, seq := some s.nextPageSeq, used := 0, failed := 0 } ∧
  t.nextPageSeq = s.nextPageSeq + 1 ∧ t.headStamped = false ∧
  t.onList (.header sp (if readStamp s.store.pages[sp].wear = .erased then .both else .sequence)) = true ∧
  (∀ h, s.head = some h → t.page h = { s.page h with role := .closed }) ∧
  (∀ r, s.reserve = some r → (t.page r).role = .spare ∧ t.reclaim = s.reclaim) ∧
  (s.reserve = none → ∀ o, s.reclaim = some o → t.reclaim = some o) ∧
  (s.reserve = none → s.reclaim = none → ∀ o, s.closeHead.oldest = some o →
    ((s.closeHead.page o).role = .closed ∨ ∃ (k : Fin 31) (r : Record), readRecord s.store.pages[o].records[k] = .intact r) →
      t.reclaimPlaced o True)

/-- What a fall of the store mode leaves (R38, R60, R70): STORE with the new mode on both ports; in a FAILED store no reclaim and no step of
the ring, and of the record jobs at most the SLOT job of a grace expiry that stays awaiting (R17). -/
def Part.modeFell (t : Part) : Prop :=
  (∀ p : Port, (t.port p).events.store = some t.mode) ∧
  (t.mode = .failed → t.reclaim = none ∧
    ∀ j ∈ t.jobs, j.id.isRing = false ∧
      (j.id.isRecord = true → ∃ i, j.id = .slot i ∧ ∃ c ∈ (t.slot i).awaiting, c.kind = .expiry ∧ c.taken = false))

/-! ### Store modes (R70) -/

/-- How far a store mode has fallen. -/
def StoreMode.rank : StoreMode → Nat
  | .normal => 0 | .degraded => 1 | .failed => 2

end Machine

end Sys2Proof
end

