-- ==== Sys2Proof/Certificates/Slice0/Obligations.lean ====
section
/-! DEFINITION. The statements for the provers: the queue and the ports, the status commands, the tag engine, the envelopes, the slots, the
lifecycle, the resets and start-up, the lines and the timebase, the program engine, and what every step keeps. An equation
`exec c s = .next (s.withPart t)` says that the command completes, what the part holds afterwards, and that all else is left. -/

section
open Sys2Proof Sys2Proof.Machine

/-! ### The queue and the timebase -/

/-- A step takes the command at the front of the queue and runs it on the state with the queue's rest. -/
def Obligations.FrontCommandRuns : Prop :=
  ∀ (c : Instr) (rest : List Instr) (s : State),
    step { s with pending := c :: rest } = exec c { s with pending := rest }

/-- Right after a reset: both ports hold no reply, no command in flight and no event, their flags clear and every kind enabled; the
envelope buffer is FREE; the tag engine holds no job and no context and last served ER; the work list and the windows are empty; the
seal window is closed; both counts stand at 0; no command waits; the invariants of the windows and of the ring hold (WindowsStayBounded). -/
def Obligations.ResetStateOfTheBlocks : Prop :=
  (∀ p : Port, State.reset.port p =
      { job := .idle, offer := none, ferr := false, busyref := false, lost := false, events := .none, mask := 0x07FF, errors := 0 }) ∧
  State.reset.receiver = { state := .free, bytes := [], fillTimer := none, verdict := none, cell := none, condemned := false } ∧
  State.reset.te = { mp := none, np := none, er := none, run := none, last := .er, live := none, parked := none } ∧
  State.reset.jobs = [] ∧ State.reset.inFlight = none ∧ State.reset.commits = [] ∧ State.reset.windows = [] ∧
  State.reset.sealWindow = none ∧ State.reset.allocNext = 0 ∧ State.reset.ms = 0 ∧ State.reset.sec = 0 ∧
  State.reset.pending = [] ∧ State.reset.windowsBounded ∧ State.reset.oneHead

/-! ### The ports (chapter 10) -/

/-- NOP at a port without a ready reply completes and clears FERR, BUSYREF and LOST; nothing else changes, whether or not a command
is in flight (R177). That a NOP with a body is taken, and not refused for its body, is the model's choice of log entry 17. -/
def Obligations.NopChangesOnlyTheFlags : Prop :=
  ∀ (s : State) (p : Port) (body : List Word),
    s.phase = .running → (s.port p).job.isReady = false → body.length ≤ maxBody →
    exec (.nop p body) s = .next (s.withPart (s.setPort p { s.port p with offer := none, ferr := false, busyref := false, lost := false }))

/-- A frame of any command but NOP at a port with a command in flight is discarded: BUSYREF is shown and nothing else changes
(R177). So is a frame whose transfer began with a command in flight, also when that command's reply became ready before select was released
(R177, step 2): that reply was in no offer, and it is neither delivered nor lost but kept (R175), as it is by a NOP, which only clears the
flags, and by a read transfer, which changes nothing. -/
def Obligations.BusyPortRefusesEveryCommand : Prop :=
  ∀ (s : State) (p : Port), s.phase = .running →
    (∀ (i : Instr) (c d : Cmd) (body : List Word),
      i.command? = some (p, c, body) → c ≠ .nop → body.length ≤ maxBody → (s.port p).job = .waiting d →
      exec i s = .next (s.withPart (s.setPort p { s.port p with offer := none, ferr := false, busyref := true, lost := false }))) ∧
    (∀ o : Offer, (s.port p).offer = some o → o.live = true → o.busy = true → o.reply = [] →
      (∀ (c : Cmd) (body : List Word), body.length ≤ maxBody →
        exec (.transferJudged p (encodeFrame c body)) s = .next (s.withPart (s.setPort p
          { s.port p with offer := none, ferr := false, busyref := decide (c ≠ .nop), lost := false }))) ∧
      (∀ n : Nat, 0 < n →
        exec (.transferJudged p (List.replicate n 0)) s = .next (s.withPart (s.setPort p { s.port p with offer := none }))))

/-- In reset and during STARTING no command, no frame and no port restart has an effect: the transfer alone ends (R90, R92). So ends a
transfer that was begun then and is still open when the ports leave STARTING: its frame is discarded (R92). -/
def Obligations.StartingPortsTakeNothing : Prop :=
  ∀ (s : State) (p : Port),
    (s.phase ≠ .running →
      (∀ (i : Instr) (c : Cmd) (body : List Word), i.command? = some (p, c, body) →
        exec i s = .next (s.withPart (s.setPort p { s.port p with offer := none }))) ∧
      (∀ words : List Word, exec (.transferJudged p words) s = .next (s.withPart (s.setPort p { s.port p with offer := none }))) ∧
      exec (.portRestart p) s = .next (s.withPart (s.setPort p { s.port p with offer := none }))) ∧
    (∀ (o : Offer) (words : List Word), (s.port p).offer = some o → o.live = false →
      exec (.transferJudged p words) s = .next (s.withPart (s.setPort p { s.port p with offer := none })))

/-- A frame is read as a command and its body exactly when it is that command's header, at most 38 body words and the check word of
both: every other word count, check word, command code or reserved bit is a frame error (R176, R185). -/
def Obligations.FramesDecodeToTheirCommand : Prop :=
  ∀ (words : List Word) (c : Cmd) (body : List Word),
    decodeFrame words = some (c, body) ↔
      body.length ≤ 38 ∧
      words = pair c.code (BitVec.ofNat 8 (4 * body.length)) :: body ++
        [crc 0xFFFF (wordBytes (pair c.code (BitVec.ofNat 8 (4 * body.length)) :: body))]

/-- A frame error (R176): the frame is discarded, FERR shows, the frame-error count rises by 1 and holds at 255, LINK is set, and a
reply that was not clocked out whole is kept. -/
def Obligations.FrameErrorIsCounted : Prop :=
  ∀ (s : State) (p : Port) (o : Offer) (words : List Word),
    s.phase = .running → (s.port p).offer = some o → o.live = true →
    words ≠ [] → (∃ w ∈ words, w ≠ 0) → words ≠ [0xFFFF] → decodeFrame words = none →
    (o.reply = [] ∨ words.length ≤ o.reply.length) →
    exec (.transferJudged p words) s = .next (s.withPart (s.setPort p
      { s.port p with offer := none, ferr := true, busyref := false, lost := false,
                      errors := min ((s.port p).errors + 1) 255, events := { (s.port p).events with link := true } }))

/-- A transfer that offered the ready reply settles it (R175). With all its words clocked out it is delivered: the buffer is emptied, a
verdict's envelope buffer becomes FREE (R114), and a STATUS_READ reply without PEEK acknowledges what it showed (R181, by the acknowledgement
that StatusDeliveryAcknowledges gives bit by bit). A read transfer that clocks out fewer keeps it. A valid frame of any command that clocks it
out whole delivers it and is then dispatched as at a port that holds no reply; one that clocks out fewer words loses it and is dispatched
likewise, with LOST shown. A frame then refused as busy delivers or loses the reply all the same. A wrong frame that clocks it out whole
delivers it and counts as a frame error (R176); FrameErrorIsCounted has the one that keeps it. That a command's own row is such a transfer is
the model's choice of log entry 2. -/
def Obligations.TransferSettlesTheReply : Prop :=
  ∀ (s : State) (p : Port) (r : Reply), s.phase = .running → (s.port p).job = .ready r → r.words ≠ [] →
    let delivered : Part := s.delivered p r
    let emptied : Part := s.emptied p r
    let dispatched (i : Instr) (body : List Word) (outcome : Host.Outcome State Fault Refusal) : Prop :=
      (r.words.length < body.length + 2 → outcome = exec i (s.withPart delivered)) ∧
      (body.length + 2 ≤ r.words.length →
        ∃ t : Part, exec i (s.withPart emptied) = .next (s.withPart t) ∧ outcome = .next (s.withPart (t.showLost p)))
    (∀ (i : Instr) (c : Cmd) (body : List Word), i.command? = some (p, c, body) → body.length ≤ maxBody →
      dispatched i body (exec i s)) ∧
    (∀ o : Offer, (s.port p).offer = some o → o.live = true → o.reply = r.words →
      (∀ n : Nat, r.words.length < n → exec (.transferJudged p (List.replicate n 0)) s = .next (s.withPart delivered)) ∧
      (∀ n : Nat, 0 < n → n ≤ r.words.length →
        exec (.transferJudged p (List.replicate n 0)) s =
          .next (s.withPart (s.setPort p { s.port p with offer := none }))) ∧
      (∀ body : List Word, body.length ≤ maxBody → body.length + 2 ≤ r.words.length →
        exec (.transferJudged p (encodeFrame .nop body)) s = .next (s.withPart (emptied.setPort p
            { s.port p with job := .idle, offer := none, ferr := false, busyref := false, lost := true }))) ∧
      (∀ (i : Instr) (c : Cmd) (body : List Word), i.command? = some (p, c, body) → body.length ≤ maxBody →
        o.busy = false ∨ c = .nop → dispatched i body (exec (.transferJudged p (encodeFrame c body)) s)) ∧
      (∀ (c : Cmd) (body : List Word), o.busy = true → c ≠ .nop → body.length ≤ maxBody →
        (r.words.length < body.length + 2 → exec (.transferJudged p (encodeFrame c body)) s = .next (s.withPart (delivered.setPort p
          { delivered.port p with ferr := false, busyref := true, lost := false }))) ∧
        (body.length + 2 ≤ r.words.length → exec (.transferJudged p (encodeFrame c body)) s = .next (s.withPart (emptied.setPort p
          { emptied.port p with ferr := false, busyref := true, lost := true })))) ∧
      (∀ words : List Word, r.words.length < words.length → (∃ w ∈ words, w ≠ 0) → decodeFrame words = none →
        exec (.transferJudged p words) s = .next (s.withPart (delivered.setPort p
          { delivered.port p with
            ferr := true, busyref := false, lost := false, errors := min ((delivered.port p).errors + 1) 255,
            events := { (delivered.port p).events with link := true } }))))

/-- What the model takes for events with nothing to act on. With no command waiting, a step is one millisecond of the timebase (R25), which
stands still in reset: the model's choice of log entry 5. A transfer in which no complete word is clocked has no effect but its own end
(R173), and a transfer never begun has none at all: the model's choice of log entry 7. -/
def Obligations.IdleStepsAndEmptyTransfers : Prop :=
  ∀ s : State,
    (s.pending = [] → step s = .next (s.withPart { s.toPart with ms := if s.phase = .held then s.ms else s.ms + 1 })) ∧
    (∀ p : Port, exec (.transferJudged p []) s = .next (s.withPart (s.setPort p { s.port p with offer := none })) ∧
      ((s.port p).offer = none → ∀ words : List Word, exec (.transferJudged p words) s = .next s))

/-- When select is asserted the offer is fixed: the status word of that moment, then the ready reply; it records whether a command was
in flight (R173, R177). During STARTING no reply is offered and the transfer's input is discarded (R92). A transfer clocks out as many
words as it clocks in: word 0 is the status word, words 1 to k the reply, every later word a zero word (R173); in reset every word is
zero (R90). That the words clocked out are a function of the offer, and no field of their own, is the model's choice of log entry 43. -/
def Obligations.SelectFixesTheOffer : Prop :=
  ∀ (s : State) (p : Port),
    let reply := match (s.port p).job with
      | .ready r => r.words
      | .idle | .waiting _ => []
    let busy := match (s.port p).job with
      | .waiting _ => true
      | .idle | .ready _ => false
    let o : Offer :=
      if s.phase = .running then { status := s.statusWord p, reply := reply, busy := busy, live := true }
      else { status := s.statusWord p, reply := [], busy := false, live := false }
    exec (.selectAsserted p) s = .next (s.withPart (s.setPort p { s.port p with offer := some o })) ∧
    (∀ n : Nat, (o.clockedOut n).length = n ∧ ∀ k : Nat, k < n → (o.clockedOut n)[k]? = some
      (if k = 0 then s.statusWord p else if s.phase = .running ∧ k ≤ reply.length then reply.getD (k - 1) 0 else 0)) ∧
    (s.phase = .held → ∀ n : Nat, o.clockedOut n = List.replicate n 0)

/-- The port status word bit by bit (R174, R185; R90 and R92 in reset and start-up), with ANY the condition of the attention line:
some kind of the event set that the mask enables (R183). The kinds of the event set bit by bit (R180, R185): the latched kinds that are
present, ENV_ABORT on the network port alone, and the derived kinds whose masks, of the slots StatusReadReports gives, are not empty. -/
def Obligations.StatusWordShowsThePort : Prop :=
  ∀ (s : State) (p : Port),
    (s.phase = .held → s.statusWord p = 0) ∧
    ((s.phase = .replayed ∨ s.phase = .sampled) → ∀ n : Nat, n < 16 →
      (s.statusWord p).getLsbD n = if n = 12 then true else if n = 8 then s.pfw else if n = 7 then s.tamp else false) ∧
    (s.phase = .running → (s.port p).job.reply.length ≤ 38 → ∀ n : Nat, n < 16 →
      (s.statusWord p).getLsbD n =
        if n = 15 then (List.range 16).any (fun k => (s.kinds p).getLsbD k && (s.port p).mask.getLsbD k)
        else if n = 14 then (s.port p).job.isReady
        else if n = 13 then (s.port p).job.isWaiting
        else if n = 12 then false
        else if n = 11 then (s.port p).ferr
        else if n = 10 then (s.port p).busyref
        else if n = 9 then (s.port p).lost
        else if n = 8 then s.pfw
        else if n = 7 then s.tamp
        else if n = 6 then false
        else (s.port p).job.reply.length.testBit n) ∧
    (s.phase ≠ .running → s.kinds p = 0) ∧
    (s.phase = .running → ∀ n : Nat, n < 16 →
      let e := (s.port p).events
      (s.kinds p).getLsbD n =
        if n = 0 then e.reset.isSome
        else if n = 1 then e.forced.isSome
        else if n = 2 then e.store.isSome
        else if n = 3 then e.cellLost.isSome
        else if n = 4 then e.tamper.isSome
        else if n = 5 then e.chainAbort
        else if n = 6 then decide (p = .np) && e.envAbort
        else if n = 7 then e.link
        else if n = 8 then (List.range 16).any (s.adoptDue p).getLsbD
        else if n = 9 then (List.range 16).any (s.counterLow p).getLsbD
        else if n = 10 then (List.range 16).any (s.exhaustedMask p).getLsbD
        else false)

/-- A port restart (R179): the reply is discarded and the port is IDLE; FERR, BUSYREF and LOST are cleared. A command in flight is condemned
wherever its block keeps it: in the awaiting changes, the held requests and the LIFE changes, in the tag job that runs, and in the envelope
receiver while it checks or commits. The port's pending tag job leaves. A chain with no step running is closed without CHAIN_ABORT; one
whose step runs stays until the step ends, marked to be closed silently unless an abort marked it before or the step is its CHAIN_CLOSE
(R158, R159; log entry 19 for the moment it closes). All else is kept, the event set, the mask and the frame-error count among it: with the
ports, the tag engine, the slots, the windows, the LIFE changes and the receiver put back, the part is as it was. A transfer of the one word
FFFFh is such a restart, whatever it offered: a reply is discarded also when it became ready during the transfer. -/
def Obligations.RestartClearsItsPort : Prop :=
  ∀ (s : State) (p : Port), s.phase = .running →
    (∀ o : Offer, (s.port p).offer = some o → o.live = true → exec (.transferJudged p [0xFFFF]) s = exec (.portRestart p) s) ∧
    let waits := (s.port p).job.isWaiting
    let mark (w : Waiter) : Waiter := if waits = true ∧ w.port = p then { w with condemned := true } else w
    let aborts : Bool := match s.te.runningStep p with
      | some (.chainOpen ..) | some (.chainData ..) => true
      | _ => false
    ∃ t : Part,
    exec (.portRestart p) s = .next (s.withPart t) ∧
    t.port p = { s.port p with job := .idle, offer := none, ferr := false, busyref := false, lost := false } ∧
    t.port p.other = s.port p.other ∧
    t.te.pendingOf (clientOf p) = none ∧
    (∀ c : Client, c ≠ clientOf p → t.te.pendingOf c = s.te.pendingOf c) ∧
    t.te.last = s.te.last ∧ t.te.context p.other = s.te.context p.other ∧
    t.te.context p = (if (s.te.runningStep p).isSome = true then s.te.context p else none) ∧
    t.te.run = s.te.run.map (fun r =>
      { r with condemned := r.condemned || (waits && decide (r.client = clientOf p)),
               abort := if aborts = true ∧ r.abort = .no then .silent else r.abort }) ∧
    (∀ i : Fin 16, t.slot i = { s.slot i with
      awaiting := (s.slot i).awaiting.map (fun c => match c.source with
        | .command w => { c with source := .command (mark w) }
        | .envelope | .part => c) }) ∧
    t.windows = s.windows.map (fun w => { w with held := w.held.map (fun h => { h with waiter := mark h.waiter }) }) ∧
    t.lifeChanges = s.lifeChanges.map (fun c => { c with waiter := mark c.waiter }) ∧
    t.receiver = (match (s.port p).job with
      | .ready r => if r.maker = .verdict then .blank else s.receiver
      | .waiting _ =>
        if p = .np ∧ (s.receiver.state = .checking ∨ s.receiver.state = .committing) then { s.receiver with condemned := true }
        else s.receiver
      | .idle => s.receiver) ∧
    ({ t with mp := s.mp, np := s.np, te := s.te, slots := s.slots, windows := s.windows, lifeChanges := s.lifeChanges,
              receiver := s.receiver } : Part) = s.toPart

/-- A command row is the whole transfer that carries its frame: select asserted, then the frame judged, leads where the command leads
(R173, R176, R177). That a row of the code table stands for that whole transfer is the model's choice of log entry 2. -/
def Obligations.TransferCarriesTheCommand : Prop :=
  ∀ (s u : State) (i : Instr) (p : Port) (c : Cmd) (body : List Word),
    i.command? = some (p, c, body) → body.length ≤ maxBody → s.phase = .running →
    exec (.selectAsserted p) s = .next u →
    exec (.transferJudged p (encodeFrame c body)) u = exec i s

/-! ### Reading and acknowledging (R181, R182, R23, R73) -/

/-- STATUS_READ at a port that takes it is answered at once with OK, the present kinds and their details, the mask, the frame-error
count, the lifecycle, the identity and the tamper count (R181, R186). With PEEK the reply clears nothing; without it the reply is to
acknowledge what it shows, and what happens from then on is new. The derived masks: ADOPT_DUE holds the slots in which the port's applied
view names OUTGOING (R8); COUNTER_LOW those whose window the port uses has fewer than 1,048,576 values left below 4,294,967,295, and EXHAUSTED
those whose window it uses is exhausted, a port using the window of the generation its view names where it is a user (R45). The RESET cause,
to which R186 gives no width, as a byte in an upper half is the model's choice of log entry 27. -/
def Obligations.StatusReadReports : Prop :=
  (∀ (s : Part) (p : Port) (i : Fin 16),
    let x := (s.slot i).applied
    let uses (w : Window) : Prop := x.user p = true ∧ ∃ v g, x.view p = some v ∧ x.viewed v = some g ∧ s.window i g.num = some w
    ((s.adoptDue p).getLsbD i.val = true ↔ x.view p = some .outgoing) ∧
    ((s.counterLow p).getLsbD i.val = true ↔ ∃ w, uses w ∧ 4294967295 - w.t < 1048576) ∧
    ((s.exhaustedMask p).getLsbD i.val = true ↔ ∃ w, uses w ∧ w.exhausted = true)) ∧
  ∀ (s : State) (p : Port), s.takes p →
    let x := s.port p
    let e := x.events
    let words : List Word :=
      [0x0001, s.kinds p, pair (causeCode e.reset) 0, e.forced.getD 0, pair ((e.store.map StoreMode.code).getD 0) 0, e.cellLost.getD 0,
       e.tamper.getD 0, s.adoptDue p, s.counterLow p, s.exhaustedMask p, x.mask,
       pair (BitVec.ofNat 8 x.errors) s.lifecycle.code] ++ toWords 4 (s.identity.getD 0).toNat ++ toWords 2 s.tamperCount
    let clean : PortState := { x with offer := none, ferr := false, busyref := false, lost := false }
    let shown : Shown :=
      { reset := e.reset.isSome, forced := e.forced, store := e.store, cellLost := e.cellLost, tamper := e.tamper,
        chainAbort := e.chainAbort, envAbort := e.envAbort, errors := x.errors }
    exec (.statusRead p [1]) s = .next (s.withPart (s.setPort p { clean with job := .ready { words := words, maker := .plain } })) ∧
    exec (.statusRead p [0]) s = .next (s.withPart (s.setPort p
      { clean with
        job := .ready { words := words, maker := .status shown },
        events := { e with chainAbortNew := false, envAbortNew := false } }))

/-- The delivery of a STATUS_READ reply without PEEK removes from the event set exactly what the reply showed (R181). That a shown slot set
again between the reply and its delivery goes with it, and so does a TAMPER shown and set again with an empty mask, is the model's choice of
log entry 44. -/
def Obligations.StatusDeliveryAcknowledges : Prop :=
  ∀ (s : State) (p : Port) (o : Offer) (w : List Word) (sh : Shown) (n : Nat),
    s.phase = .running → (s.port p).offer = some o → o.live = true → o.reply = w → w ≠ [] →
    (s.port p).job = .ready { words := w, maker := .status sh } → w.length < n →
    let x := s.port p
    let e := x.events
    let less (now shown : Option Word) : Option Word := match shown with
      | none => now
      | some m => if now.getD 0 &&& ~~~m = 0 then none else some (now.getD 0 &&& ~~~m)
    let after : Events :=
      { e with
        reset := if sh.reset = true then none else e.reset,
        forced := less e.forced sh.forced,
        store := if sh.store.isSome = true ∧ e.store = sh.store then none else e.store,
        cellLost := less e.cellLost sh.cellLost,
        tamper := less e.tamper sh.tamper,
        chainAbort := if sh.chainAbort = true ∧ e.chainAbortNew = false then false else e.chainAbort,
        envAbort := if sh.envAbort = true ∧ e.envAbortNew = false then false else e.envAbort,
        link := if x.errors ≤ sh.errors then false else e.link }
    exec (.transferJudged p (List.replicate n 0)) s = .next (s.withPart (s.setPort p
      { x with job := .idle, offer := none, errors := x.errors - sh.errors, events := after }))

/-- SET_MASK (R182): a word with no reserved bit becomes the mask and the reply is OK with it; any other body is refused with
BAD_ARG and the mask stays; an empty mask keeps the attention line released; on the metrology port the ENV_ABORT enable has no
effect; the mask selects and does not filter the event set; it is every kind as the ports leave STARTING, and a port restart keeps
it. -/
def Obligations.SetMaskSetsTheMask : Prop :=
  (∀ (s : State) (p : Port) (w : Word), s.takes p → w.toNat < 2048 →
    exec (.setMask p [w]) s = .next (s.withPart (s.setPort p
      { (s.port p).answered [0x0002, w] with mask := w }))) ∧
  (∀ (s : State) (p : Port) (body : List Word), s.takes p → body.length ≤ maxBody → (∀ w : Word, body = [w] → 2048 ≤ w.toNat) →
    exec (.setMask p body) s = .next (s.withPart (s.answered p [0x1002]))) ∧
  (∀ (s : Part) (p : Port), (s.port p).mask = 0 → s.attention p = false) ∧
  (∀ (s : Part) (m : Word), (s.setPort .mp { s.mp with mask := m }).attention .mp =
    (s.setPort .mp { s.mp with mask := m &&& 0xFFBF }).attention .mp) ∧
  (∀ (s : Part) (p : Port) (m : Word), (s.setPort p { s.port p with mask := m }).kinds p = s.kinds p ∧
    (s.setPort p { s.port p with mask := m }).statusItems p =
      (s.statusItems p).take 9 ++ ReplyItem.words [m] :: (s.statusItems p).drop 10) ∧
  (∀ (s : State) (p : Port), s.mayLeave = true → ∃ t, exec .leaveStarting s = .next (s.withPart t) ∧ (t.port p).mask = 0x07FF) ∧
  (∀ (s : State) (p : Port), ∃ t, exec (.portRestart p) s = .next (s.withPart t) ∧ (t.port p).mask = (s.port p).mask)

/-- SLOT_INFO and STORE_INFO are answered at once and change nothing else (R23, R73): the words of the reply to SLOT_INFO for a
slot without attributes, UNUSED or ZEROIZING with its UNLOAD applied beneath it (R18), and for one with a class, and of the reply to
STORE_INFO (R186). The items R186 gives no width for, and that absent items read as 0, are the model's choice of log entry 27. A slot
number above 15 is refused with BAD_ARG. -/
def Obligations.InfoCommandsOnlyReply : Prop :=
  ∀ (s : State) (p : Port), s.takes p →
    (∀ i : Fin 16,
      let x := s.slot i
      let h := x.applied
      let awaits : Byte := if x.state = .unused then 0 else yesNo (!x.awaiting.isEmpty)
      (h.attrs = none →
        exec (.slotInfo p [pair (slotByte i) 0]) s = .next (s.withPart (s.answered p
          ([0x0003, pair (slotByte i) x.state.code, pair awaits 0, 0, 0, 0, 0, BitVec.ofNat 16 h.highest]
            ++ List.replicate 10 0)))) ∧
      (∀ a, h.attrs = some a →
        exec (.slotInfo p [pair (slotByte i) 0]) s = .next (s.withPart (s.answered p
          ([0x0003, pair (slotByte i) x.state.code, pair awaits a.cls.code,
            pair (yesNo a.erase) (slotByte a.tslot), BitVec.ofNat 16 a.smin, BitVec.ofNat 16 a.grace,
            BitVec.ofNat 16 (x.graceLeft.getD 0), BitVec.ofNat 16 h.highest, pair (BitVec.ofNat 8 a.label.length) 0]
          ++ packBytes ((a.label ++ List.replicate 6 0).take 6)
          ++ [BitVec.ofNat 16 (genNumber h.pending), BitVec.ofNat 16 (genNumber h.current), BitVec.ofNat 16 (genNumber h.outgoing),
              pair (if h.onCommand then 2 else 0) (viewCode h.mpView), pair (viewCode h.npView) 0,
              BitVec.ofNat 16 h.issuing.length]
          ++ h.issuing.flatMap (fun v => match s.window i v.2.num with
              | none => [pair (viewCode (some v.1)) 0, 0, 0, 0, 0]
              | some w => pair (viewCode (some v.1)) (yesNo w.exhausted) :: (toWords 2 w.t ++ toWords 2 w.p))))))) ∧
    (∀ w : Word, 15 < (hiByte w).toNat → exec (.slotInfo p [w]) s = .next (s.withPart (s.answered p [0x1003]))) ∧
    exec (.storeInfo p []) s = .next (s.withPart (s.answered p
      ([0x0004, pair s.mode.code (BitVec.ofNat 8 s.wear), pair (BitVec.ofNat 8 s.usable) 0]
      ++ allPages.flatMap (fun q => pair (s.page q).role.code 0 :: toWords 2 (s.page q).erases)
      ++ [pair ((s.head.map (fun q => BitVec.ofNat 8 q.val)).getD 0xFF) ((s.spare.map (fun q => BitVec.ofNat 8 q.val)).getD 0xFF),
          pair (BitVec.ofNat 8 ((s.head.map (fun q => (s.page q).used)).getD 0)) (yesNo s.reclaim.isSome),
          pair (BitVec.ofNat 8 s.liveCount) (BitVec.ofNat 8 (s.countCells (· == .free))),
          pair (BitVec.ofNat 8 (s.countCells Cell.isUsed)) (BitVec.ofNat 8 (s.countCells Cell.isReleased)),
          pair (BitVec.ofNat 8 (s.countCells (· == .bad))) (BitVec.ofNat 8 s.jobs.length)])))

/-- A body that does not suit its command is refused with BAD_ARG at once and changes nothing else: a wrong length, an argument out of its
range, a reserved bit or byte that is set (R186). The forms: QUICK_TAG at most 64 bytes (R149), QUICK_VERIFY 60 (R150), CHAIN_OPEN a mode
and at most 4,096 (R152), CHAIN_DATA some bytes (R154), an identity (R163), LOAD_PLAIN's S_min, label and unused label bytes, which are zero
(R164), ENV_DATA 1 to 74 bytes (R110); no body for STORE_INFO (R73), ENV_OPEN (R109), CHAIN_DROP (R156) and the rest. That a CHAIN_DATA, a
CHAIN_DROP or a SEAL is refused so before its chain or its lifecycle is looked at, an ACTIVATE from the metrology port before RIGHTS, and an
ENV_OPEN, ENV_DATA, ENV_CLOSE or ENV_DROP before its envelope is, is the model's choice of log entry 36. -/
def Obligations.BadBodiesAreRefused : Prop :=
  ∀ (s : State) (p : Port) (b : List Word), s.takes p → b.length ≤ maxBody →
    let hi (k : Nat) : Nat := (hiByte (b.getD k 0)).toNat
    let lo (k : Nat) : Nat := (loByte (b.getD k 0)).toNat
    let no (c : Cmd) : Host.Outcome State Fault Refusal := .next (s.withPart (s.answered p [pair 0x10 c.code]))
    (b.length ≠ 1 ∨ 2 ≤ (b.getD 0 0).toNat → exec (.statusRead p b) s = no .statusRead) ∧
    (b.length ≠ 1 ∨ 15 < hi 0 ∨ lo 0 ≠ 0 → exec (.slotInfo p b) s = no .slotInfo ∧ exec (.unload p b) s = no .unload) ∧
    (b ≠ [] → exec (.storeInfo p b) s = no .storeInfo ∧ exec (.chainDrop p b) s = no .chainDrop ∧ exec (.seal p b) s = no .seal) ∧
    (b = [] ∨ 64 < lo 0 ∨ b.length ≠ 1 + (lo 0 + 1) / 2 → exec (.quickTag p b) s = no .quickTag) ∧
    (b.length < 8 ∨ 60 < lo 0 ∨ b.length ≠ 8 + (lo 0 + 1) / 2 → exec (.quickVerify p b) s = no .quickVerify) ∧
    (¬ ((b.length = 2 ∧ lo 0 = 1 ∨ b.length = 5 ∧ lo 0 = 2) ∧ (b.getD 1 0).toNat ≤ 4096) →
      exec (.chainOpen p b) s = no .chainOpen) ∧
    (b = [] → exec (.chainData p b) s = no .chainData) ∧
    (b.length ≠ 2 ∨ 15 < hi 0 ∨ lo 0 ≠ 0 → exec (.activate p b) s = no .activate ∧ exec (.adopt p b) s = no .adopt) ∧
    (b.length ≠ 4 ∨ (∀ w ∈ b, w = 0) ∨ (b.getD 2 0 = 0xFFFF ∧ b.getD 3 0 = 0xFFFF) →
      exec (.setIdentity p b) s = no .setIdentity) ∧
    (b.length ≠ 16 ∨ 15 < hi 0 ∨ lo 0 < 1 ∨ 4 < lo 0 ∨ 15 < hi 1 ∨ 1 < lo 1 ∨
        (∀ k, 4 ≤ k → k ≤ 12 → (b.getD 2 0).toNat ≠ 2 ^ k) ∨ hi 4 < 1 ∨ 6 < hi 4 ∨ lo 4 ≠ 0 ∨
        labelForm ((wordBytes [b.getD 5 0, b.getD 6 0, b.getD 7 0]).take (hi 4)) = false ∨
        (∃ x ∈ (wordBytes [b.getD 5 0, b.getD 6 0, b.getD 7 0]).drop (hi 4), x ≠ 0) →
      exec (.loadPlain p b) s = no .loadPlain) ∧
    (p = .np → b ≠ [] → exec (.envOpen p b) s = no .envOpen ∧ exec (.envClose p b) s = no .envClose ∧
      exec (.envDrop p b) s = no .envDrop) ∧
    (p = .np → (b.getD 0 0).toNat < 1 ∨ 74 < (b.getD 0 0).toNat ∨ b.length ≠ 1 + ((b.getD 0 0).toNat + 1) / 2 →
      exec (.envData p b) s = no .envData)

/-! ### The tag engine (chapters 2 and 8) -/

/-- The checks of R19 in their order, made of QUICK_TAG, QUICK_VERIFY and CHAIN_OPEN: the first that fails gives the refusal, at once,
and nothing else changes. Before them, a CHAIN_OPEN at a port whose chain is open is refused with CHAIN_OPEN (R152). That a set lower
half of the last word of an odd QUICK_VERIFY message is no fault of form is the model's choice of log entry 48. -/
def Obligations.KeyChecksRefuseInOrder : Prop :=
  ∀ (s : State) (p : Port) (slot : Nat) (named : Nat) (r : Code), s.takes p →
    (∀ b x, argChainOpen b = some x → s.te.context p ≠ none →
      exec (.chainOpen p b) s = .next (s.withPart (s.answered p [0x1812]))) ∧
    ((15 < slot ∧ r = .badArg ∨
      ∃ i : Fin 16, i.val = slot ∧
        (s.lifecycle = .blank ∧ r = .lifecycle ∨
         s.lifecycle ≠ .blank ∧
          ((s.slot i).applied.user p = false ∧ r = .rights ∨
           (s.slot i).applied.user p = true ∧
            ((s.slot i).state.holds = false ∧ r = .slotState ∨
             (s.slot i).state.holds = true ∧
              (named ≠ 0 ∧ (s.slot i).applied.holdsUsable named = false ∨
               named = 0 ∧ (∀ v, (s.slot i).applied.view p = some v → (s.slot i).applied.viewed v = none)) ∧ r = .noGen)))) →
    ((∀ b m, b.length ≤ maxBody → argQuickTag b = some (slot, m) → named = 0 →
      exec (.quickTag p b) s = .next (s.withPart (s.answered p [pair r.byte 0x10]))) ∧
    (∀ b c t m, b.length ≤ maxBody → argQuickVerify b = some (slot, named, c, t, m) →
      exec (.quickVerify p b) s = .next (s.withPart (s.answered p [pair r.byte 0x11]))) ∧
    (∀ b mode n c, argChainOpen b = some (slot, mode, n, named, c) → s.te.context p = none →
      exec (.chainOpen p b) s = .next (s.withPart (s.answered p [pair r.byte 0x12])))))

/-- A TAG request whose key checks pass and whose window is open is issued T (R27): T rises by 1, the window is exhausted when T reaches
4,294,967,295 (R44), and the port's job takes the value to the tag engine. A window that has run low wants its reservation, which is
placed at once in class 2, or stays wanted under PFW or in a FAILED store (R30, R31). Nothing else changes. -/
def Obligations.TagTakesTheNextValue : Prop :=
  ∀ (s : State) (p : Port) (i : Fin 16) (g : Nat) (c : Instr) (cmd : Cmd) (job : Nat → TagJob) (req : HeldRequest) (w : Window),
    s.takes p → TagRow s.toPart p i g c cmd job req → s.usesKey p i g →
    s.window i g = some w → w.exhausted = false → w.t < w.p → w.p ≤ maxCounter →
    ∃ (ws : List Window) (js : List Job) (age : Nat),
      exec c s = .next (s.withPart
        { s.waitingOn p cmd with
          windows := ws, jobs := js, nextAge := age, te := s.te.setPending (clientOf p) (some (job w.t)) }) ∧
      (∀ j n, (j, n) ≠ (i, g) → windowIn ws j n = s.window j n) ∧
      (let issued : Window := { w with t := w.t + 1, exhausted := decide (w.t + 1 = maxCounter) }
       let low := 4 * (w.p - (w.t + 1)) ≤ w.sCur ∧ w.p < maxCounter ∧ w.reservation = .none
       (¬ low → windowIn ws i g = some issued ∧ js = s.jobs ∧ age = s.nextAge) ∧
       (low → (s.pfw = true ∨ s.mode = .failed) →
         windowIn ws i g = some { issued with reservation := .wanted } ∧ js = s.jobs ∧ age = s.nextAge) ∧
       (low → s.pfw = false → s.mode ≠ .failed →
         windowIn ws i g = some { issued with reservation := .queued } ∧ age = s.nextAge + 1 ∧
         js = putJob { id := .ceil i g, cls := 2, age := s.nextAge, requesters := [.counterUnit], commits := [] } s.jobs))

/-- A TAG request that finds T = P is held or refused by the first line of R40 that matches; one that finds its window exhausted is
refused with EXHAUSTED (R44); a port with a request already held on the window is refused (R40). -/
def Obligations.ClosedWindowHoldsOrRefuses : Prop :=
  ∀ (s : State) (p : Port) (i : Fin 16) (g : Nat) (c : Instr) (cmd : Cmd) (job : Nat → TagJob) (req : HeldRequest) (w : Window),
    s.takes p → TagRow s.toPart p i g c cmd job req → s.usesKey p i g → s.window i g = some w → w.t = w.p →
    (w.exhausted = true → exec c s = .next (s.withPart (s.answered p [pair 0x15 cmd.code]))) ∧
    (w.exhausted = false → w.t < maxCounter →
      ((∃ h ∈ w.held, h.waiter.port = p) → exec c s = .next (s.withPart (s.answered p [pair 0x16 cmd.code]))) ∧
      ((∀ h ∈ w.held, h.waiter.port ≠ p) →
        ((w.reservation = .inFlight ∨ w.reservation = .queued ∧ s.pfw = false) →
          exec c s = .next (s.withPart
            { s.waitingOn p cmd with
              windows := s.windows.map (fun v => if v.slot = i ∧ v.gen = g then
                { v with held := v.held ++ [{ waiter := { port := p, condemned := false }, request := req }] } else v) })) ∧
        ((w.reservation = .queued ∧ s.pfw = true ∨ w.reservation = .wanted ∧ (s.pfw = true ∨ s.mode = .failed)) →
          exec c s = .next (s.withPart (s.answered p [pair 0x16 cmd.code])))))

/-- A QUICK_VERIFY or a CHAIN_OPEN in VERIFY mode whose key checks pass places the port's job and changes nothing else: no window is
consulted and none changes (R29, R150, R152), whatever the reservation, PFW or the store mode. -/
def Obligations.VerifyLeavesTheWindows : Prop :=
  ∀ (s : State) (p : Port) (i : Fin 16) (named : Word) (g : Nat) (c : Instr) (cmd : Cmd) (job : TagJob),
    s.takes p → VerifyRow s.toPart p i named g c cmd job → s.verifiesWith p i named g →
    exec c s = .next (s.withPart { s.waitingOn p cmd with te := s.te.setPending (clientOf p) (some job) })

/-- CHAIN_DATA is taken whole, taken but for its last byte, or refused with CHAIN_LENGTH (R154), and CHAIN_CLOSE is judged as R155 gives; an
accepted step sets last activity and places the port's job, and nothing else changes. With no chain open both are refused with CHAIN_NONE.
Which refusal a CHAIN_CLOSE gets where more than one holds, first CHAIN_NONE, then BAD_ARG, is the model's choice of log entry 36. -/
def Obligations.ChainStepsArePlaced : Prop :=
  ∀ (s : State) (p : Port), s.takes p →
    (∀ x : Context, s.te.context p = some x →
      let step (cmd : Cmd) (j : TagJob) : Host.Outcome State Fault Refusal := .next (s.withPart
        { s.waitingOn p cmd with te := (s.te.modContext p (fun y => { y with last := s.ms })).setPending (clientOf p) (some j) })
      (∀ b : List Word, b ≠ [] → b.length ≤ maxBody →
        (x.taken + 2 * b.length ≤ x.n → exec (.chainData p b) s = step .chainData (.chainData (wordBytes b))) ∧
        (x.taken + 2 * b.length = x.n + 1 → exec (.chainData p b) s = step .chainData (.chainData (wordBytes b).dropLast)) ∧
        (x.n + 2 ≤ x.taken + 2 * b.length → exec (.chainData p b) s = .next (s.withPart (s.answered p [0x1913])))) ∧
      (x.mode = .tag → (x.taken = x.n → exec (.chainClose p []) s = step .chainClose (.chainClose none)) ∧
        (x.taken ≠ x.n → exec (.chainClose p []) s = .next (s.withPart (s.answered p [0x1914]))) ∧
        (∀ b : List Word, b ≠ [] → b.length ≤ maxBody → exec (.chainClose p b) s = .next (s.withPart (s.answered p [0x1014])))) ∧
      (x.mode = .verify →
        (∀ t3 t2 t1 t0 : Word,
          (x.taken = x.n → exec (.chainClose p [t3, t2, t1, t0]) s =
            step .chainClose (.chainClose (some (t3 ++ t2 ++ t1 ++ t0)))) ∧
          (x.taken ≠ x.n → exec (.chainClose p [t3, t2, t1, t0]) s = .next (s.withPart (s.answered p [0x1914])))) ∧
        (∀ b : List Word, b.length ≠ 4 → b.length ≤ maxBody →
          exec (.chainClose p b) s = .next (s.withPart (s.answered p [0x1014]))))) ∧
    (s.te.context p = none → ∀ b : List Word, b.length ≤ maxBody →
      (b ≠ [] → exec (.chainData p b) s = .next (s.withPart (s.answered p [0x1713]))) ∧
      exec (.chainClose p b) s = .next (s.withPart (s.answered p [0x1714])))

/-- CHAIN_DROP (R156): the port's context is discarded from whichever place holds it, the other port's stays, and the reply OK is ready
at once; no job is placed, no event is set and no window changes. With no chain open it is refused with CHAIN_NONE. -/
def Obligations.ChainDropDiscardsTheContext : Prop :=
  ∀ (s : State) (p : Port), s.takes p →
    (∀ x : Context, s.te.context p = some x →
      exec (.chainDrop p []) s = .next (s.withPart { s.answered p [0x0015] with te := s.te.dropContext p }) ∧
      (s.te.dropContext p).context p = none ∧ (s.te.dropContext p).context p.other = s.te.context p.other) ∧
    (s.te.context p = none → exec (.chainDrop p []) s = .next (s.withPart (s.answered p [0x1715])))

/-- The tag of R144: block 0 enciphered, then every whole block of the message, then its last bytes with 80h and zero bytes; the tag is
the first 8 bytes. A chain gives the tag a quick operation gives over the same message, however the message is cut into pieces (R152 to
R155): the context a CHAIN_OPEN job makes, fed piece by piece and closed. -/
def Obligations.TagsFollowTheRule : Prop :=
  (∀ (k : Key) (counter slot gen : Nat) (blocks : List (List Byte)) (rest : List Byte),
    (∀ b ∈ blocks, b.length = 16) → rest.length < 16 →
    let m := blocks.flatten ++ rest
    let x0 := encipher k (blockOf (toBytes 4 counter ++ toBytes 2 m.length ++ toBytes 1 slot ++ toBytes 1 gen))
    let xn := blocks.foldl (fun x b => encipher k (x ^^^ blockOf b)) x0
    tagOf k counter slot gen m = firstHalf (encipher k (xn ^^^ blockOf (rest ++ [0x80])))) ∧
  (∀ (k : Key) (x : Context) (pieces : List (List Byte)),
    x.x = encipher k (tagBlock0 x.counter pieces.flatten.length x.slot.val x.gen) → x.part = [] →
    let y := pieces.foldl (fun z b => z.data k b) x
    firstHalf (absorbLast k y.x y.part) = tagOf k x.counter x.slot.val x.gen pieces.flatten ∧
    y.taken = x.taken + pieces.flatten.length)

/-- A key is read for a job only from a generation its slot holds as CURRENT or OUTGOING, for a port that is a user, and never while the
slot is ZEROIZING (R21); a generation so held, with its key intact in its cell, yields that key. -/
def Obligations.KeysComeFromHeldGenerations : Prop :=
  ∀ (s : Part) (i : Fin 16) (g : Nat) (user : Option Port),
    (∀ k : Key, s.keyFor i g user = some k →
      (s.slot i).zeroizing = false ∧ (s.slot i).applied.holdsUsable g = true ∧
      (∀ p, user = some p → (s.slot i).applied.user p = true) ∧
      ∃ c kc, (s.slot i).applied.usableCell g = some c ∧ readCell s.store.cells[c] = .intact kc ∧ kc.key = k) ∧
    (∀ (c : Fin 48) (kc : KeyCell), (s.slot i).zeroizing = false → (∀ p, user = some p → (s.slot i).applied.user p = true) →
      ((s.slot i).applied.current = some { num := g, cell := c } ∨
        (∀ x, (s.slot i).applied.current = some x → x.num ≠ g) ∧ (s.slot i).applied.outgoing = some { num := g, cell := c }) →
      readCell s.store.cells[c] = .intact kc → s.keyFor i g user = some kc.key)

/-- The engine, with no job in flight, takes the pending job of the first requester in the rotation MP, NP, ER after the one last served,
which becomes last served (R147). A quick job or a CHAIN_OPEN runs under its key, or is answered SLOT_STATE or NO_GEN (R21); a chain step
first exchanges the contexts when its own is parked (R153), and is answered CHAIN_NONE when its chain or its key is gone (R21, R148); an
unwrap runs under the transport key or ends with ENV_TRANSPORT. That the rotation decides also after the engine has waited is the model's
choice of log entry 22, and that nothing changes with a job in flight or none pending that of log entry 7. -/
def Obligations.TagEngineTakesInRotation : Prop :=
  ∀ s : State,
    (s.te.run ≠ none → exec .teTakeJob s = .next s) ∧
    (s.te.mp = none → s.te.np = none → s.te.er = none → exec .teTakeJob s = .next s) ∧
    (∀ (c : Client) (j : TagJob) (before after : List Client), s.te.run = none → s.te.pendingOf c = some j →
      (match s.te.last with
        | .mp => [Client.np, .er, .mp]
        | .np => [.er, .mp, .np]
        | .er => [.mp, .np, .er]) = before ++ c :: after →
      (∀ d ∈ before, s.te.pendingOf d = none) →
      let te : TagEngine := { s.te.setPending c none with last := c }
      let starts (t : TagEngine) (k : Key) : Host.Outcome State Fault Refusal := .next (s.withPart
        { s.toPart with te := { t with run := some { client := c, job := j, key := k, abort := .no, condemned := false } } })
      (∀ (p : Port) (i : Fin 16) (g : Nat), c = clientOf p →
        ((∃ n m, j = .quickTag i g n m) ∨ (∃ n t m, j = .quickVerify i g n t m) ∨ (∃ mode n l, j = .chainOpen i g mode n l)) →
        (∀ k, s.keyFor i g (some p) = some k → exec .teTakeJob s = starts te k) ∧
        (s.keyFor i g (some p) = none → exec .teTakeJob s = .next (s.withPart
          ({ s.toPart with te := te }.makeReady p
            { words := [pair (if (s.slot i).state.holds = true then 0x14 else 0x13) j.cmd.code], maker := .plain })))) ∧
      (∀ (p : Port) (x : Context) (k : Key), c = clientOf p → ((∃ b, j = .chainData b) ∨ (∃ t, j = .chainClose t)) →
        s.keyFor x.slot x.gen (some p) = some k → x.port = p →
        (s.te.live = some x → exec .teTakeJob s = starts te k) ∧
        (s.te.parked = some x → (∀ y, s.te.live = some y → y.port ≠ p) →
          exec .teTakeJob s = starts { te with live := some x, parked := s.te.live } k)) ∧
      (∀ p : Port, c = clientOf p → ((∃ b, j = .chainData b) ∨ (∃ t, j = .chainClose t)) →
        (∀ x, s.te.context p = some x → s.keyFor x.slot x.gen (some p) = none) →
        exec .teTakeJob s = .next (s.withPart ({ s.toPart with te := te }.makeReady p
          { words := [pair 0x17 j.cmd.code], maker := .plain }))) ∧
      (∀ e : Envelope, c = .er → j = .unwrap e →
        (∀ k, s.transportOk e.tslot e.tgen = true → s.keyFor e.tslot e.tgen none = some k → exec .teTakeJob s = starts te k) ∧
        (s.transportOk e.tslot e.tgen = false →
          exec .teTakeJob s = .next (s.withPart ({ s.toPart with te := te }.giveVerdict .envTransport)))))

/-- A verification recomputes the tag and compares all 8 bytes: MATCH or MISMATCH with the slot and the generation used is the reply, and no
window, event or other state changes (R145). The quick job (R150), and the close of a chain in VERIFY mode, which also discards the chain's
context (R155). -/
def Obligations.VerificationComparesTags : Prop :=
  ∀ (s : State) (p : Port) (k : Key) (t : Tag), 
    (∀ (i : Fin 16) (g c : Nat) (m : List Byte),
      s.te.run = some { client := clientOf p, job := .quickVerify i g c t m, key := k, abort := .no, condemned := false } →
      exec .teJobDone s = .next (s.withPart ({ s.toPart with te := { s.te with run := none } }.makeReady p
        { words := [if tagOf k c i.val g m = t then 0x0111 else 0x0211, pair (slotByte i) 0, BitVec.ofNat 16 g], maker := .plain }))) ∧
    (∀ x : Context,
      s.te.run = some { client := clientOf p, job := .chainClose (some t), key := k, abort := .no, condemned := false } →
      s.te.context p = some x →
      exec .teJobDone s = .next (s.withPart ({ s.toPart with te := { s.te.dropContext p with run := none } }.makeReady p
        { words := [if firstHalf (absorbLast k x.x x.part) = t then 0x0114 else 0x0214, pair (slotByte x.slot) 0,
                    BitVec.ofNat 16 x.gen], maker := .plain })))

/-- The end of a tag engine job in TAG mode or of a chain step (R148 to R155): the reply with its items, the context a CHAIN_OPEN places
(the live one moves to the parked place), the bytes a CHAIN_DATA takes in, the tag of a CHAIN_CLOSE and the end of its chain. A condemned
job ends without a reply, and a condemned CHAIN_OPEN places no context (R159). An abort that reached a running CHAIN_DATA takes effect at
its end, with CHAIN_ABORT or silently (R158). The bytes taken of a CHAIN_DATA reply in one word are the model's choice of log entry 27, and
that nothing changes with no job in flight that of log entry 7. -/
def Obligations.TagJobEndsWithItsReply : Prop :=
  ∀ (s : State) (p : Port) (k : Key) (q : Bool),
    let ran (j : TagJob) (a : Abort) (b : Bool) : Option TagRun :=
      some { client := clientOf p, job := j, key := k, abort := a, condemned := b }
    let replies (te : TagEngine) (w : List Word) : Part :=
      ({ s.toPart with te := { te with run := none } } : Part).makeReady p { words := w, maker := .plain }
    (s.te.run = none → exec .teJobDone s = .next s) ∧
    (∀ (i : Fin 16) (g c : Nat) (m : List Byte), s.te.run = ran (.quickTag i g c m) .no q →
      exec .teJobDone s = .next (s.withPart
        (if q then { s.toPart with te := { s.te with run := none } }
         else replies s.te ([0x0010, pair (slotByte i) 0, BitVec.ofNat 16 g] ++ toWords 2 c ++
          toWords 4 (tagOf k c i.val g m).toNat)))) ∧
    (∀ (i : Fin 16) (g c n : Nat) (mode : ChainMode), s.te.run = ran (.chainOpen i g mode c n) .no false →
      let x : Context :=
        { port := p, mode := mode, slot := i, gen := g, counter := c, n := n, taken := 0, x := encipher k (tagBlock0 c n i.val g),
          part := [], last := s.ms }
      exec .teJobDone s = .next (s.withPart (replies
        { s.te with live := some x, parked := (match s.te.live with
          | none => s.te.parked
          | some y => some y) }
        ([0x0012, pair (slotByte i) 0, BitVec.ofNat 16 g] ++ (if mode = .tag then toWords 2 c else []))))) ∧
    (∀ (b : List Byte) (x : Context), s.te.run = ran (.chainData b) .no false → s.te.context p = some x →
      exec .teJobDone s = .next (s.withPart (replies (s.te.modContext p (fun y => y.data k b))
        [0x0013, BitVec.ofNat 16 (x.taken + b.length)]))) ∧
    (∀ x : Context, s.te.run = ran (.chainClose none) .no false → s.te.context p = some x →
      exec .teJobDone s = .next (s.withPart (replies (s.te.dropContext p)
        ([0x0014, pair (slotByte x.slot) 0, BitVec.ofNat 16 x.gen] ++ toWords 2 x.counter ++
          toWords 4 (firstHalf (absorbLast k x.x x.part)).toNat)))) ∧
    (∀ (i : Fin 16) (g c n : Nat) (mode : ChainMode), s.te.run = ran (.chainOpen i g mode c n) .silent true →
      exec .teJobDone s = .next (s.withPart { s.toPart with te := { s.te.dropContext p with run := none } })) ∧
    (∀ (b : List Byte) (x : Context), s.te.run = ran (.chainData b) .silent q → s.te.context p = some x →
      exec .teJobDone s = .next (s.withPart
        (if q then { s.toPart with te := { s.te.dropContext p with run := none } }
         else replies (s.te.dropContext p) [0x0013, BitVec.ofNat 16 (x.taken + b.length)]))) ∧
    (∀ (b : List Byte) (x : Context), s.phase = .running → s.te.run = ran (.chainData b) .event false → s.te.context p = some x →
      ∃ t, exec .teJobDone s = .next (s.withPart t) ∧ t.te.context p = none ∧ (t.port p).events.chainAbort = true ∧
        (t.port p).job = .ready { words := [0x0013, BitVec.ofNat 16 (x.taken + b.length)], maker := .plain })

/-! ### Envelopes (chapter 6) -/

/-- ENV_OPEN, ENV_DATA and ENV_DROP at the network port: taken as the state of the buffer gives, or refused with ENV_NONE or ENV_BUSY,
ENV_CLOSE with them (R109, R110, R112, R113); an ENV_DATA past 75 bytes is refused with BAD_ARG and takes nothing. From the metrology port
all four are refused with RIGHTS (R177). Nothing else changes. -/
def Obligations.EnvelopeIsFilled : Prop :=
  ∀ s : State,
    (s.takes .np →
      let yes (w : Word) (r : Receiver) : Host.Outcome State Fault Refusal :=
        .next (s.withPart { s.answered .np [w] with receiver := r })
      let no (w : Word) : Host.Outcome State Fault Refusal := .next (s.withPart (s.answered .np [w]))
      let empty (st : EnvState) (t : Option Count) : Receiver :=
        { state := st, bytes := [], fillTimer := t, verdict := none, cell := none, condemned := false }
      (s.receiver.state = .free →
        exec (.envOpen .np []) s = yes 0x0020 (empty .filling (some s.ms)) ∧
        exec (.envClose .np []) s = no 0x1B22 ∧ exec (.envDrop .np []) s = no 0x1B23) ∧
      (s.receiver.state = .filling →
        exec (.envOpen .np []) s = no 0x1A20 ∧ exec (.envDrop .np []) s = yes 0x0023 (empty .free none)) ∧
      ((s.receiver.state = .checking ∨ s.receiver.state = .committing) →
        exec (.envOpen .np []) s = no 0x1A20 ∧ exec (.envClose .np []) s = no 0x1A22 ∧ exec (.envDrop .np []) s = no 0x1A23) ∧
      (∀ b : List Byte, 1 ≤ b.length → b.length ≤ 74 →
        let data : Instr := .envData .np (BitVec.ofNat 16 b.length :: packBytes b)
        (s.receiver.state = .free → exec data s = no 0x1B21) ∧
        (s.receiver.state = .filling → s.receiver.bytes.length + b.length ≤ 75 →
          exec data s = yes 0x0021 { s.receiver with bytes := s.receiver.bytes ++ b, fillTimer := some s.ms }) ∧
        (s.receiver.state = .filling → 75 < s.receiver.bytes.length + b.length → exec data s = no 0x1021) ∧
        ((s.receiver.state = .checking ∨ s.receiver.state = .committing) → exec data s = no 0x1A21))) ∧
    (s.takes .mp → ∀ body : List Word, body.length ≤ maxBody →
      exec (.envOpen .mp body) s = .next (s.withPart (s.answered .mp [0x1120])) ∧
      exec (.envData .mp body) s = .next (s.withPart (s.answered .mp [0x1121])) ∧
      exec (.envClose .mp body) s = .next (s.withPart (s.answered .mp [0x1122])) ∧
      exec (.envDrop .mp body) s = .next (s.withPart (s.answered .mp [0x1123])))

/-- ENV_CLOSE of a FILLING envelope (R113): checks 1 to 6 in order (R116, R117, R118), the first to fail giving the verdict at once with
its items (R114); all passed, the buffer is CHECKING and the unwrap job is placed (R119). What the checks test: check 1 the length, the
codes, the numbers and the label, each field at its place (R115, R116, R187); check 2 the check word (R116); check 3 the destination
against the identity (R117); check 5 the class, the transport slot and its class, and the label of the slot in its projected state, neither
UNUSED nor ZEROIZING (R118); check 6 the state of the transport slot and its generations (R22). Fewer than 62 bytes fail check 1. The widths of the verdict's items, the reference in four words and the kind in a byte, are the model's choice of log entry 27. -/
def Obligations.EnvCloseJudgesTheEnvelope : Prop :=
  (∀ (b : List Byte) (e : Envelope), parseEnvelope b = some e ↔
    let l := e.label.length
    let mode := b.getD 24 0
    ∃ x : Nat, (x = 0 ∨ x = 8) ∧ 62 ≤ b.length ∧ b.length ≤ 75 ∧ b.length = 61 + l + x ∧
      1 ≤ l ∧ l ≤ 6 ∧ labelForm e.label = true ∧ e.label = (b.drop 27).take l ∧
      b.getD 0 0 = e.kind.code ∧ e.destination = (b.drop 1).take 8 ∧ e.reference = (b.drop 9).take 8 ∧
      b.getD 17 0 = slotByte e.slot ∧ b.getD 18 0 = e.cls.code ∧ b.getD 19 0 = slotByte e.tslot ∧
      e.tgen = field2 b 20 ∧ 1 ≤ e.tgen ∧ e.gen = field2 b 22 ∧ 1 ≤ e.gen ∧ e.grace = field2 b 25 ∧
      (e.immediate = true ↔ mode = 1) ∧ (e.kind = .renew → mode = 1 ∨ mode = 2) ∧
      (e.kind = .cancel → mode = 0 ∧ e.grace = 0 ∧ ∀ y ∈ (b.drop (27 + l + x)).take 16, y = 0) ∧
      e.expected = (if x = 8 then some
        { pending := field2 b (27 + l), current := field2 b (29 + l), outgoing := field2 b (31 + l), highest := field2 b (33 + l) }
        else none) ∧
      e.b = BitVec.ofNat 128 (ofBytes ((b.drop (27 + l + x)).take 16)) ∧
      e.v = BitVec.ofNat 64 (ofBytes ((b.drop (43 + l + x)).take 8)) ∧
      e.a = BitVec.ofNat 64 (ofBytes ((b.drop (51 + l + x)).take 8)) ∧ e.covered = b.take (51 + l + x)) ∧
  (∀ b : List Byte, envelopeCheck b = true ↔ b.drop (b.length - 2) = wordPair (crc 0xFFFF (b.take (b.length - 2)))) ∧
  (∀ (d : List Byte) (id : Option Ident), destinationOk d id = true ↔
    d = List.replicate 8 0xFF ∨ ∃ x, id = some x ∧
      (d = bytesOf 8 x ∨ d.take 4 = (bytesOf 8 x).take 4 ∧ d.drop 4 = List.replicate 4 0xFF)) ∧
  (∀ (s : Part) (e : Envelope), s.slotCheckNow e = true ↔
    (s.slot e.slot).zeroizing = false ∧ ∃ a, (s.projected e.slot).attrs = some a ∧ a.cls = e.cls ∧ a.tslot = e.tslot ∧
      (s.projected e.tslot).cls = some .transport ∧ a.label = e.label) ∧
  (∀ (s : Part) (i : Fin 16) (g : Nat), s.transportOk i g = true ↔
    ((s.slot i).state = .ready ∨ (s.slot i).state = .staged ∨ (s.slot i).state = .switching ∨
      (s.slot i).state = .switchingStaged) ∧
    ∃ x, x.num = g ∧ ((s.slot i).applied.current = some x ∨ (s.slot i).applied.outgoing = some x)) ∧
  ∀ s : State, s.takes .np → s.receiver.state = .filling → s.receiver.condemned = false →
    let b := s.receiver.bytes
    let verdict (v : Code) (items : List Word) : Host.Outcome State Fault Refusal := .next (s.withPart (Part.makeReady
      { s.waitingOn .np .envClose with receiver := { s.receiver with state := .verdict, fillTimer := none, verdict := some v, cell := none } }
      .np { words := pair v.byte 0x22 :: items, maker := .verdict }))
    (b.length < 62 → parseEnvelope b = none) ∧
    (parseEnvelope b = none →
      exec (.envClose .np []) s = verdict .envForm [pair (BitVec.ofNat 8 b.length) 0, 0, 0, 0, 0, 0, 0]) ∧
    (∀ e : Envelope, parseEnvelope b = some e →
      (envelopeCheck b = false →
        exec (.envClose .np []) s = verdict .envCheck [pair (BitVec.ofNat 8 b.length) 0, 0, 0, 0, 0, 0, 0]) ∧
      (envelopeCheck b = true →
        (∀ v : Code,
          (destinationOk e.destination s.identity = false ∧ v = .envNotOurs ∨
           destinationOk e.destination s.identity = true ∧
            (s.lifecycle = .blank ∧ v = .envLifecycle ∨
             s.lifecycle ≠ .blank ∧
              (s.slotCheckNow e = false ∧ v = .envSlot ∨
               s.slotCheckNow e = true ∧ s.transportOk e.tslot e.tgen = false ∧ v = .envTransport))) →
          exec (.envClose .np []) s = verdict v
            ([pair (BitVec.ofNat 8 b.length) e.kind.code, pair (slotByte e.slot) 0, BitVec.ofNat 16 e.gen] ++ packBytes e.reference)) ∧
        (destinationOk e.destination s.identity = true → s.lifecycle ≠ .blank → s.slotCheckNow e = true →
          s.transportOk e.tslot e.tgen = true →
          exec (.envClose .np []) s = .next (s.withPart
            { s.waitingOn .np .envClose with
              receiver := { s.receiver with state := .checking, fillTimer := none },
              te := s.te.setPending .er (some (.unwrap e)) }))))

/-- The unwrap relation (R119): an envelope wrapped under the transport key for this meter's identity yields its key and passes the key
check; the key check of a CANCEL holds for its V alone. -/
def Obligations.UnwrapRecoversTheKey : Prop :=
  ∀ (kt key : Key) (e : Envelope) (id : Ident),
    let h (last : Byte) : Block := blockOf
      (toBytes 1 e.slot.val ++ toBytes 2 e.gen ++ bytesOf 8 id ++ toBytes 1 e.label.length ++ [0, 0, 0, last])
    (e.kind = .renew → e.b = key ^^^ encipher kt (h 0) →
      unwrapKey kt e id = key ∧ (keyCheckOk kt e id = true ↔ firstHalf (encipher kt (key ^^^ h 0xFF)) = e.v)) ∧
    (e.kind = .cancel → (keyCheckOk kt e id = true ↔ firstHalf (encipher kt (h 0xFF)) = e.v)) ∧
    (headerTagOk kt e = true ↔ tagOf kt e.gen e.slot.val e.tgen e.covered = e.a)

/-- The end of an unwrap job (R119 to R125). When check 7 fails the verdict is ENV_INTEGRITY; then the first of the remaining checks to
fail gives its verdict: check 5 again ENV_SLOT; of a RENEW ENV_STALE, where the number is not new or an expected-state part does not match the
projected slot in each of its four numbers (R122), ENV_PENDING, ENV_SWITCHING, ENV_STORE, ENV_NO_CELL, and ENV_POWER with
the allocated cell FREE again and the allocation pointer past it (R120); of a CANCEL ENV_NO_PENDING, ENV_STORE, ENV_POWER (R121). A RENEW that passes every check is
accepted: its cell is allocated, its commit opens with the cell program, the CEIL record and the slot's SLOT job in class 4, its change,
not yet ready, joins the awaiting list, and the buffer is COMMITTING. A CANCEL that passes is accepted with its change ready and the SLOT
job as its single step. That the envelope receiver alone is recorded as the requester of these jobs is the model's choice of log entry 47. -/
def Obligations.UnwrapEndsInItsCommit : Prop :=
  (∀ (x : Pers) (e : Envelope), expectedOk x e = true ↔ ∀ w, e.expected = some w →
    w.pending = genNumber x.pending ∧ w.current = genNumber x.current ∧ w.outgoing = genNumber x.outgoing ∧ w.highest = x.highest) ∧
  ∀ (s : State) (e : Envelope) (kt : Key),
    s.te.run = some { client := .er, job := .unwrap e, key := kt, abort := .no, condemned := false } →
    s.receiver.condemned = false →
    let id := s.identity.getD 0
    let te : TagEngine := { s.te with run := none }
    let x := s.projected e.slot
    let n := s.nextAge
    let job (id : JobId) (age step : Nat) : Job :=
      { id := id, cls := 4, age := age, requesters := [.envelopeReceiver], commits := [(n, step)] }
    let commit (k : CommitKind) (c : Option (Fin 48)) (key : Option Key) (age : Nat) : Commit :=
      { id := n, kind := k, slot := e.slot, gen := e.gen, cell := c, key := key, verified := 0, opened := false, retried := false,
        firstAge := age }
    let waits (k : ChangeKind) (ready : Bool) : Vector Slot 16 := s.slots.set e.slot
      { s.slot e.slot with awaiting := (s.slot e.slot).awaiting ++ [{ kind := k, ready := ready, taken := false, source := .envelope }] }
    let ends (v : Code) : Prop := exec .teJobDone s = .next (s.withPart ({ s.toPart with te := te }.giveVerdict v))
    (¬ (keyCheckOk kt e id = true ∧ headerTagOk kt e = true) → ends .envIntegrity) ∧
    (keyCheckOk kt e id = true → headerTagOk kt e = true →
      (s.slotCheckNow e = false → ends .envSlot) ∧
      (s.slotCheckNow e = true → e.kind = .renew →
        (¬ (x.highest < e.gen ∧ expectedOk x e = true) → ends .envStale) ∧
        (x.highest < e.gen → expectedOk x e = true →
          (x.pending ≠ none → ends .envPending) ∧
          (x.pending = none → e.immediate = true → x.state.inSwitch = true → ends .envSwitching) ∧
          (x.pending = none → (e.immediate = true → x.state.inSwitch = false) →
            (s.mode ≠ .normal → ends .envStore) ∧
            (s.mode = .normal → s.freeCell = none → ends .envNoCell) ∧
            (∀ c : Fin 48, s.mode = .normal → s.freeCell = some c → s.pfw = true →
              exec .teJobDone s = .next (s.withPart ({ s.toPart with te := te, allocNext := c + 1 }.giveVerdict .envPower)))))) ∧
      (s.slotCheckNow e = true → e.kind = .cancel →
        (¬ (isGen x.pending e.gen = true ∧ expectedOk x e = true) → ends .envNoPending) ∧
        (isGen x.pending e.gen = true → expectedOk x e = true →
          (s.mode = .failed → ends .envStore) ∧
          (s.mode ≠ .failed → s.pfw = true → ends .envPower)))) ∧
    (keyCheckOk kt e id = true → headerTagOk kt e = true → s.slotCheckNow e = true → s.pfw = false → expectedOk x e = true →
      (∀ c : Fin 48, e.kind = .renew → x.highest < e.gen → x.pending = none → (e.immediate = true → x.state.inSwitch = false) →
        s.mode = .normal → s.freeCell = some c →
        exec .teJobDone s = .next (s.withPart
          { s.toPart with
            te := te, cells := s.cells.set c (.used e.slot e.gen), allocNext := c + 1,
            commits := s.commits ++ [commit .renew (some c) (some (unwrapKey kt e id)) n],
            receiver := { s.receiver with state := .committing, cell := some c },
            slots := waits (.renew e.immediate e.gen (max e.grace 60) c n) false,
            jobs := putJob (job (.slot e.slot) (n + 2) 3) (putJob (job (.ceil e.slot e.gen) (n + 1) 2)
              (putJob (job (.cellProgram c) n 1) s.jobs)),
            nextAge := n + 3 })) ∧
      (e.kind = .cancel → isGen x.pending e.gen = true → s.mode ≠ .failed → s.onList (.slot e.slot) = false →
        exec .teJobDone s = .next (s.withPart
          { s.toPart with
            te := te, commits := s.commits ++ [commit .cancel none none n],
            receiver := { s.receiver with state := .committing },
            slots := waits (.cancel e.gen n) true, jobs := putJob (job (.slot e.slot) n 1) s.jobs, nextAge := n + 1 })))

/-! ### Slots and their changes (chapters 1 and 7) -/

/-- What each change does to the slot it is folded into: ACTIVATE (R131), ADOPT and the retirement it may bring (R136), grace expiry
(R139), RENEW (R124), CANCEL (R125), LOAD_PLAIN (R165), UNLOAD (R166) and zeroize (R170). That a zeroize leaves a slot without a class as it
is, and so UNUSED, is the model's choice of log entry 52. -/
def Obligations.ChangesFoldAsTheRulesGive : Prop :=
  ∀ x : Pers,
    let behind (v : Option View) : Option View := v.map (fun _ => .outgoing)
    let ahead (v : Option View) : Option View := v.map (fun _ => .current)
    let fresh (c : SlotClass) (p : Port) : Option View := match c, p with
      | .shared, _ | .metrology, .mp | .network, .np => some .current
      | .transport, _ | .metrology, .np | .network, .mp => none
    (∀ (n : Nat) (g : Gen), x.pending = some g →
      x.fold (.activate n) = { x with pending := none, current := some g, outgoing := x.current, mpView := behind x.mpView,
                                      npView := behind x.npView, onCommand := false }) ∧
    (∀ n : Nat, x.fold (.adopt .mp n) =
      { x with mpView := ahead x.mpView, outgoing := if x.npView = some .outgoing then x.outgoing else none }) ∧
    (∀ n : Nat, x.fold (.adopt .np n) =
      { x with npView := ahead x.npView, outgoing := if x.mpView = some .outgoing then x.outgoing else none }) ∧
    (∀ g : Gen, x.outgoing = some g →
      x.fold .expiry = { x with mpView := ahead x.mpView, npView := ahead x.npView, outgoing := none }) ∧
    (x.outgoing = none → x.fold .expiry = x) ∧
    (∀ (a : Attrs) (im : Bool) (g gr k : Nat) (c : Fin 48), x.attrs = some a →
      let new : Option Gen := some { num := g, cell := c }
      let y : Pers := { x with attrs := some { a with grace := gr }, highest := g }
      (x.state = .empty → x.fold (.renew im g gr c k) =
        { y with current := new, mpView := fresh a.cls .mp, npView := fresh a.cls .np }) ∧
      ((x.state = .ready ∨ x.state = .switching) → x.fold (.renew false g gr c k) =
        { y with pending := new, onCommand := true }) ∧
      (x.state = .ready → x.fold (.renew true g gr c k) =
        { y with current := new, outgoing := x.current, mpView := behind x.mpView, npView := behind x.npView })) ∧
    (∀ g k : Nat, x.fold (.cancel g k) = { x with pending := none, onCommand := false }) ∧
    (∀ (a : Attrs) (g k : Nat) (c : Fin 48), x.fold (.load a g c k) =
      { attrs := some a, highest := g, pending := none, current := some { num := g, cell := c }, outgoing := none,
        mpView := fresh a.cls .mp, npView := fresh a.cls .np, onCommand := false }) ∧
    x.fold .unload =
      { attrs := none, highest := x.highest, pending := none, current := none, outgoing := none, mpView := none, npView := none,
        onCommand := false } ∧
    x.fold .zeroize =
      { x with pending := none, current := none, outgoing := none, mpView := none, npView := none, onCommand := false }

/-- ACTIVATE from the network port of the projected PENDING generation of a STAGED slot is accepted (R130, R131): its change joins the
awaiting list, ready at once, with the slot's SLOT job in class 4, and it stays the port's command in flight. The checks that fail first
give SLOT_STATE, NO_GEN, STORE or POWER_LOW; from the metrology port it is refused with RIGHTS. -/
def Obligations.ActivateIsAccepted : Prop :=
  ∀ (s : State) (i : Fin 16) (g : Word),
    let body : List Word := [pair (slotByte i) 0, g]
    let x := s.projected i
    let no (w : Word) : Host.Outcome State Fault Refusal := .next (s.withPart (s.answered .np [w]))
    (s.takes .mp → exec (.activate .mp body) s = .next (s.withPart (s.answered .mp [0x1124]))) ∧
    (s.takes .np →
      ((s.slot i).zeroizing = true ∨ x.state ≠ .staged → exec (.activate .np body) s = no 0x1324) ∧
      ((s.slot i).zeroizing = false → x.state = .staged →
        (isGen x.pending g.toNat = false → exec (.activate .np body) s = no 0x1424) ∧
        (isGen x.pending g.toNat = true →
          (s.mode = .failed → exec (.activate .np body) s = no 0x1C24) ∧
          (s.mode ≠ .failed → s.pfw = true → exec (.activate .np body) s = no 0x1E24) ∧
          (s.mode ≠ .failed → s.pfw = false →
            let change : Change :=
              { kind := .activate g.toNat, ready := true, taken := false, source := .command { port := .np, condemned := false } }
            exec (.activate .np body) s = .next (s.withPart
              { s.waitingOn .np .activate with
                slots := s.slots.set i { s.slot i with awaiting := (s.slot i).awaiting ++ [change] },
                jobs := putJob { id := .slot i, cls := 4, age := s.nextAge, requesters := [.keyStore], commits := [] } s.jobs,
                nextAge := s.nextAge + 1 })))))

/-- ADOPT of the projected CURRENT generation by a user of the slot (R134 to R136): answered at once, whatever PFW and the store mode, when
the port's projected view already names CURRENT; otherwise accepted, its change ready at once with the slot's SLOT job in class 4. The
checks that fail first give RIGHTS, SLOT_STATE, NO_GEN, STORE or POWER_LOW. That the CURRENT number of the reply given at once is the
projected one, which the command names, is the model's choice of log entry 42: R135 gives the applied view and does not say which CURRENT
number. -/
def Obligations.AdoptIsAnsweredOrAccepted : Prop :=
  ∀ (s : State) (p : Port) (i : Fin 16) (g : Word), s.takes p →
    let x := s.projected i
    let adopt := exec (.adopt p [pair (slotByte i) 0, g]) s
    let no (w : Word) : Host.Outcome State Fault Refusal := .next (s.withPart (s.answered p [w]))
    (x.user p = false → adopt = no 0x1125) ∧
    (x.user p = true → ((s.slot i).zeroizing = true ∨ x.state.holds = false) → adopt = no 0x1325) ∧
    (x.user p = true → (s.slot i).zeroizing = false → x.state.holds = true →
      (isGen x.current g.toNat = false → adopt = no 0x1425) ∧
      (isGen x.current g.toNat = true →
        (x.view p = some .current → adopt = .next (s.withPart (s.answered p
          [0x0025, pair (slotByte i) 0, g, pair (viewCode ((s.slot i).applied.view p)) 0]))) ∧
        (x.view p ≠ some .current → s.mode = .failed → adopt = no 0x1C25) ∧
        (x.view p ≠ some .current → s.mode ≠ .failed → s.pfw = true → adopt = no 0x1E25) ∧
        (x.view p ≠ some .current → s.mode ≠ .failed → s.pfw = false →
          let change : Change :=
            { kind := .adopt p g.toNat, ready := true, taken := false, source := .command { port := p, condemned := false } }
          adopt = .next (s.withPart
            { s.waitingOn p .adopt with
              slots := s.slots.set i { s.slot i with awaiting := (s.slot i).awaiting ++ [change] },
              jobs := putJob { id := .slot i, cls := 4, age := s.nextAge, requesters := [.keyStore], commits := [] } s.jobs,
              nextAge := s.nextAge + 1 }))))

/-! ### Lifecycle (chapter 9) -/

/-- LOAD_PLAIN into an UNUSED slot, or into an EMPTY one with the attributes it holds, while the projected lifecycle is PROVISIONED (R164,
R165): a cell is allocated, the commit opens with the cell program, the CEIL record and the slot's SLOT job in class 4, and the change,
not yet ready, joins the awaiting list under the next generation number. The grace is raised to 60. The checks that fail first give LIFECYCLE,
SLOT_STATE, BAD_ARG for other attributes than an EMPTY slot's, NO_GEN at 65,535, STORE, NO_CELL and POWER_LOW; that the last leaves the cell
FREE and the allocation pointer past it is the model's choice of log entry 33, and that the key store controller is recorded as the requester of
all three steps that of log entry 47. -/
def Obligations.LoadOpensACommit : Prop :=
  ∀ (s : State) (p : Port) (i : Fin 16) (cls : SlotClass) (tslot : Fin 16) (erase : Bool) (smin grace : Word) (label : List Byte)
    (key : List Word) (c : Fin 48),
    s.takes p → (∃ k, 4 ≤ k ∧ k ≤ 12 ∧ smin.toNat = 2 ^ k) → 1 ≤ label.length → label.length ≤ 6 → labelForm label = true →
    key.length = 8 →
    let a : Attrs :=
      { cls := cls, erase := erase, tslot := tslot, smin := smin.toNat, label := label, grace := max grace.toNat 60 }
    let body : List Word :=
      [pair (slotByte i) cls.code, pair (slotByte tslot) (yesNo erase), smin, grace, pair (BitVec.ofNat 8 label.length) 0]
      ++ packBytes ((label ++ List.replicate 6 0).take 6) ++ key
    let x := s.projected i
    let g := x.highest + 1
    let n := s.nextAge
    let job (id : JobId) (age step : Nat) : Job :=
      { id := id, cls := 4, age := age, requesters := [.keyStore], commits := [(n, step)] }
    let m : Commit :=
      { id := n, kind := .load, slot := i, gen := g, cell := some c, key := some (BitVec.ofNat 128 (ofWords key)), verified := 0,
        opened := false, retried := false, firstAge := n }
    let change : Change :=
      { kind := .load a g c n, ready := false, taken := false, source := .command { port := p, condemned := false } }
    let load := exec (.loadPlain p body) s
    let no (w : Word) : Host.Outcome State Fault Refusal := .next (s.withPart (s.answered p [w]))
    (s.projectedLife ≠ .provisioned → load = no 0x1231) ∧
    (s.projectedLife = .provisioned →
      ((s.slot i).zeroizing = true ∨ x.state ≠ .unused ∧ x.state ≠ .empty → load = no 0x1331) ∧
      ((s.slot i).zeroizing = false → x.state = .empty → (∀ h, x.attrs = some h → a ≠ { h with grace := a.grace }) →
        load = no 0x1031) ∧
      ((s.slot i).zeroizing = false →
        (x.state = .unused ∨ x.state = .empty ∧ ∃ h, x.attrs = some h ∧ a = { h with grace := a.grace }) →
        (65535 ≤ x.highest → load = no 0x1431) ∧
        (x.highest < 65535 → s.mode ≠ .normal → load = no 0x1C31) ∧
        (x.highest < 65535 → s.mode = .normal →
          (s.freeCell = none → load = no 0x1D31) ∧
          (s.freeCell = some c → s.pfw = true →
            load = .next (s.withPart { s.answered p [0x1E31] with allocNext := c + 1 })) ∧
          (s.freeCell = some c → s.pfw = false →
            load = .next (s.withPart
              { s.waitingOn p .loadPlain with
                cells := s.cells.set c (.used i g), allocNext := c + 1, commits := s.commits ++ [m],
                slots := s.slots.set i { s.slot i with awaiting := (s.slot i).awaiting ++ [change] },
                jobs := putJob (job (.slot i) (n + 2) 3)
                  (putJob (job (.ceil i g) (n + 1) 2) (putJob (job (.cellProgram c) n 1) s.jobs)),
                nextAge := n + 3 })))))

/-- UNLOAD while the projected lifecycle is PROVISIONED (R166): a slot already UNUSED in its projected state is answered at once; another
has its change placed, ready at once, with the slot's SLOT job in class 4. Outside PROVISIONED it is refused with LIFECYCLE and in
ZEROIZING with SLOT_STATE; a change is refused with STORE in a FAILED store and with POWER_LOW under PFW. That
the reply given at once holds the projected highest generation seen is the model's choice of log entry 38. -/
def Obligations.UnloadIsAnsweredOrAccepted : Prop :=
  ∀ (s : State) (p : Port) (i : Fin 16), s.takes p →
    let x := s.projected i
    let unload := exec (.unload p [pair (slotByte i) 0]) s
    let no (w : Word) : Host.Outcome State Fault Refusal := .next (s.withPart (s.answered p [w]))
    (s.projectedLife ≠ .provisioned → unload = no 0x1232) ∧
    (s.projectedLife = .provisioned → (s.slot i).zeroizing = true → unload = no 0x1332) ∧
    (s.projectedLife = .provisioned → (s.slot i).zeroizing = false →
      (x.state = .unused → unload =
        .next (s.withPart (s.answered p [0x0032, pair (slotByte i) 0, BitVec.ofNat 16 x.highest]))) ∧
      (x.state ≠ .unused → s.mode = .failed → unload = no 0x1C32) ∧
      (x.state ≠ .unused → s.mode ≠ .failed → s.pfw = true → unload = no 0x1E32) ∧
      (x.state ≠ .unused → s.mode ≠ .failed → s.pfw = false →
        let change : Change :=
          { kind := .unload, ready := true, taken := false, source := .command { port := p, condemned := false } }
        unload = .next (s.withPart
          { s.waitingOn p .unload with
            slots := s.slots.set i { s.slot i with awaiting := (s.slot i).awaiting ++ [change] },
            jobs := putJob { id := .slot i, cls := 4, age := s.nextAge, requesters := [.keyStore], commits := [] } s.jobs,
            nextAge := s.nextAge + 1 })))

/-- SET_IDENTITY in BLANK, and the two SEALs in PROVISIONED (R162, R163, R167, R168): the identity and a second SEAL place a LIFE change
with a class-4 LIFE job; a first SEAL, or another from the port that opened the window, opens the window at this millisecond and is
answered at once (the byte for "window open" is left free, log entry 12); a second SEAL closes the window and is refused with
SEAL_PRECONDITION when the slots do not satisfy it; that a ZEROIZING slot left without attributes satisfies it as an UNUSED one does is the
model's choice of log entry 53. A FAILED store refuses the identity and the second SEAL with STORE, and PFW with
POWER_LOW; the window is closed then too. -/
def Obligations.LifeChangesNeedTheirSteps : Prop :=
  ∀ (s : State) (p : Port), s.takes p →
    let accepted (cmd : Cmd) (l : Lifecycle) (id : Option Ident) (w : Option (Port × Count)) : Host.Outcome State Fault Refusal :=
      .next (s.withPart
        { s.waitingOn p cmd with
          sealWindow := w,
          lifeChanges := s.lifeChanges ++
            [{ target := l, identity := id, waiter := { port := p, condemned := false }, taken := false }],
          jobs := putJob { id := .life, cls := 4, age := s.nextAge, requesters := [.lifecycleMonitor], commits := [] } s.jobs,
          nextAge := s.nextAge + 1 })
    (∀ a b c d : Word, (a ≠ 0 ∨ b ≠ 0 ∨ c ≠ 0 ∨ d ≠ 0) → (c ≠ 0xFFFF ∨ d ≠ 0xFFFF) →
      (s.projectedLife ≠ .blank → exec (.setIdentity p [a, b, c, d]) s = .next (s.withPart (s.answered p [0x1230]))) ∧
      (s.projectedLife = .blank → s.mode = .failed → exec (.setIdentity p [a, b, c, d]) s = .next (s.withPart (s.answered p [0x1C30]))) ∧
      (s.projectedLife = .blank → s.mode ≠ .failed → s.pfw = true →
        exec (.setIdentity p [a, b, c, d]) s = .next (s.withPart (s.answered p [0x1E30]))) ∧
      (s.projectedLife = .blank → s.mode ≠ .failed → s.pfw = false →
        exec (.setIdentity p [a, b, c, d]) s = accepted .setIdentity .provisioned (some (a ++ b ++ c ++ d)) s.sealWindow)) ∧
    (s.projectedLife ≠ .provisioned → exec (.seal p []) s = .next (s.withPart (s.answered p [0x1233]))) ∧
    (s.projectedLife = .provisioned →
      (s.sealWindow = none ∨ (∃ t, s.sealWindow = some (p, t)) →
        exec (.seal p []) s = .next (s.withPart
          { s.answered p [0x0033, pair Config.windowOpenByte 0] with sealWindow := some (p, s.ms) })) ∧
      (∀ t : Count, s.sealWindow = some (p.other, t) →
        let ready : Prop :=
          (∃ i, (s.projected i).cls = some .transport ∧ (s.projected i).state = .ready ∧ (s.slot i).zeroizing = false) ∧
          (∀ i a, (s.projected i).attrs = some a →
            (s.projected a.tslot).cls = some .transport ∧ (s.projected a.tslot).state.holds = true ∧
            (s.slot a.tslot).zeroizing = false) ∧
          (∀ i, ∀ c ∈ (s.slot i).awaiting, c.kind ≠ .unload ∧ ∀ a g d k, c.kind ≠ .load a g d k)
        (¬ ready → exec (.seal p []) s = .next (s.withPart { s.answered p [0x1F33] with sealWindow := none })) ∧
        (ready → s.mode = .failed → exec (.seal p []) s = .next (s.withPart { s.answered p [0x1C33] with sealWindow := none })) ∧
        (ready → s.mode ≠ .failed → s.pfw = true →
          exec (.seal p []) s = .next (s.withPart { s.answered p [0x1E33] with sealWindow := none })) ∧
        (ready → s.mode ≠ .failed → s.pfw = false → exec (.seal p []) s = accepted .seal .sealed s.projectedIdentity none)))

/-! ### Resets and start-up (chapters 4 and 5) -/

/-- A power-on reset and a pin reset end alike (R89, R90): everything in RAM takes its reset value, and the lines and the store stay. The
values that the tables replay rebuilds (page roles, cells, store mode, lifecycle, cover and the rest) hold until START_UP are the model's
choice of log entry 3. The job in flight is torn: a record position or a cell it was writing is left neither erased nor intact; of a header, the stamp being programmed
reads neither erased nor intact (R89), and of one with both stamps the wear stamp reads so, or stands and the sequence stamp reads so (the
model's choice of log entry 15); of a header or a page erase, only that page can have changed. The cause is POWER once the supply has been out of range. RSTN released changes the line alone. -/
def Obligations.ResetsClearRam : Prop :=
  ∀ s : State, ∃ (st : Store) (d : Nat),
    let held (power supply rstn : Bool) : Host.Outcome State Fault Refusal := .next (s.withPart
      { Part.reset with
        powerCause := power, supply := supply, rstn := rstn, pfw := s.pfw, tamp := s.tamp, store := st, draws := d })
    (∀ inRange : Bool, exec (.powerOnReset inRange) s = held true inRange s.rstn) ∧
    exec (.pinReset false) s = held s.powerCause s.supply false ∧
    exec (.pinReset true) s = .next (s.withPart { s.toPart with rstn := true }) ∧
    (s.inFlight = none → st = s.store) ∧
    (∀ f, s.inFlight = some f →
      (∀ p i, ((∃ n b, f.work = .record p i n b) ∨ (∃ r, f.work = .carry p i r)) →
        let g : StoredPage := { s.store.pages[p] with records := s.store.pages[p].records.set i .broken }
        st = { s.store with pages := s.store.pages.set p g }) ∧
      (∀ p w q, f.work = .header p w q → st.cells = s.store.cells ∧ st.pages[p].records = s.store.pages[p].records ∧
        (∀ k : Fin 8, k ≠ p → st.pages[k] = s.store.pages[k]) ∧
        (w = none → st.pages[p].wear = s.store.pages[p].wear) ∧ (q = none → st.pages[p].stamp = s.store.pages[p].stamp) ∧
        (w ≠ none → q = none → readStamp st.pages[p].wear = .broken) ∧
        (w = none → q ≠ none → readStamp st.pages[p].stamp = .broken) ∧
        (∀ m n, w = some m → q = some n →
          readStamp st.pages[p].wear = .broken ∧ st.pages[p].stamp = s.store.pages[p].stamp ∨
          st.pages[p].wear = encodeStamp wearMarker m ∧ readStamp st.pages[p].stamp = .broken)) ∧
      (∀ p, f.work = .pageErase p → st.cells = s.store.cells ∧ (∀ k : Fin 8, k ≠ p → st.pages[k] = s.store.pages[k]) ∧
        st.pages[p].wear = .broken ∧ st.pages[p].stamp = .broken) ∧
      (∀ c, ((∃ i g k, f.work = .cellProgram c i g k) ∨ f.work = .cellErase c) →
        st = { s.store with cells := s.store.cells.set c .broken }))

/-- START_UP, once the supply is in range and RSTN is high, replays the store and writes nothing to it (R91): the counts start from 0,
the ports, the tag engine and the envelope receiver are in their reset states, no job is in flight, no commit is open, the seal window
is closed. The lifecycle, the identity and the tamper count are those of their latest intact records (R96), and the next record takes a
number above every intact record's (R95). Otherwise START_UP changes nothing, which is the
model's choice of log entry 7. -/
def Obligations.StartUpReadsOnly : Prop :=
  ∀ s : State,
    (¬ (s.phase = .held ∧ s.supply = true ∧ s.rstn = true) → exec .startUp s = .next s) ∧
    (s.phase = .held → s.supply = true → s.rstn = true →
      ∃ t : Part, exec .startUp s = .next (s.withPart t) ∧
        t.phase = .replayed ∧ t.store = s.store ∧ t.draws = s.draws ∧ t.powerCause = s.powerCause ∧ t.supply = s.supply ∧
        t.rstn = s.rstn ∧ t.pfw = s.pfw ∧ t.tamp = s.tamp ∧ t.ms = 0 ∧ t.sec = 0 ∧ t.mp = .blank ∧ t.np = .blank ∧
        t.te = .blank ∧ t.receiver = .blank ∧ t.inFlight = none ∧ t.commits = [] ∧ t.lifeChanges = [] ∧ t.sealWindow = none ∧
        t.allocNext = 0 ∧ t.fullReclaims = 0 ∧
        (∀ f l id, latestIn s.store.found .life f → f.record.body? = some (.life l id) → t.lifecycle = l ∧ t.identity = id) ∧
        (unrecorded s.store.found .life → t.lifecycle = .blank ∧ t.identity = none) ∧
        (∀ f n, latestIn s.store.found .tamper f → f.record.body? = some (.tamper n) → t.tamperCount = n) ∧
        (unrecorded s.store.found .tamper → t.tamperCount = 0) ∧
        (∀ f ∈ s.store.found, f.record.seq < t.nextSeq))

/-- What the header, scan and fact steps read of a page (R93 to R97): its role, its erase count, its place in the ring, its last used
position, the highest that does not read erased, and its failed positions, and from them the next page sequence number, the store mode and
the wear level. A page that a PAGEBAD record lists is RETIRING or BAD, and so is a head with two failed positions, whose own PAGEBAD job is
placed: RETIRING while it holds the latest record of some fact key. Of the pages that read erased the lowest-numbered is SPARE and the others
RESERVE; every other page that is not listed and has no intact sequence stamp is CLOSED and owed an erase. A page without an intact wear
stamp takes the highest count of another's (R66). -/
def Obligations.StartUpReadsThePages : Prop :=
  ∀ s : State, s.phase = .held → s.supply = true → s.rstn = true →
    ∃ t : Part, exec .startUp s = .next (s.withPart t) ∧
      (∀ q : Fin 8,
        let g := s.store.pages[q]
        let bare (r : Fin 8) : Prop :=
          (∀ f ∈ s.store.found, f.record.body? ≠ some (.pagebad r)) ∧ readStamp s.store.pages[r].stamp = .erased ∧
          readStamp s.store.pages[r].wear ≠ .broken ∧ ∀ i : Fin 31, readRecord s.store.pages[r].records[i] = .erased
        let lastUsed (n : Nat) : Prop :=
          n ≤ 31 ∧ ∀ i : Fin 31, (n ≤ i.val → readRecord g.records[i] = .erased) ∧ (i.val + 1 = n → readRecord g.records[i] ≠ .erased)
        let listed : Prop := ∃ f ∈ s.store.found, f.record.body? = some (.pagebad q)
        let newest (n : Nat) : Prop :=
          ∀ (r : Fin 8) m, r ≠ q → readStamp s.store.pages[r].stamp = .intact m → m < n
        let retired : Prop :=
          ((∃ k f, latestIn s.store.found k f ∧ f.page = q) → (t.page q).role = .retiring) ∧
          ((∀ f ∈ s.store.found, f.page = q → ∀ k, f.record.key? = some k →
            ∃ h ∈ s.store.found, h.record.key? = some k ∧ f.record.seq < h.record.seq) → (t.page q).role = .bad)
        (∀ n, readStamp g.stamp = .intact n →
          (t.page q).seq = some n ∧ n < t.nextPageSeq ∧
          lastUsed (t.page q).used ∧ (t.page q).failed = min g.failures 1 ∧
          (listed → retired ∧ (newest n → ∀ r : Fin 8, (t.page r).role ≠ .head)) ∧
          (¬ listed →
            (g.failures ≤ 1 → ((t.page q).role = .head ∨ (t.page q).role = .closed) ∧ (newest n → (t.page q).role = .head)) ∧
            (∀ (r : Fin 8) m, readStamp s.store.pages[r].stamp = .intact m → n < m → (t.page q).role = .closed) ∧
            (2 ≤ g.failures → newest n → retired ∧ (∀ r : Fin 8, (t.page r).role ≠ .head) ∧
              (t.mode ≠ .failed → t.onList (.pagebad q) = true)))) ∧
        (listed → (∀ n, readStamp g.stamp ≠ .intact n) → (t.page q).role = .bad) ∧
        (bare q → (t.page q).used = 0 ∧ ((∀ r : Fin 8, r < q → ¬ bare r) → (t.page q).role = .spare) ∧
          ((∃ r : Fin 8, r < q ∧ bare r) → (t.page q).role = .reserve)) ∧
        (¬ listed → (∀ n, readStamp g.stamp ≠ .intact n) → ¬ bare q →
          (t.page q).role = .closed ∧ (t.page q).seq = none ∧ lastUsed (t.page q).used ∧ (t.page q).failed = min g.failures 1) ∧
        (∀ n, readStamp g.wear = .intact n → (t.page q).erases = n) ∧
        ((∀ n, readStamp g.wear ≠ .intact n) →
          (∀ (r : Fin 8) n, readStamp s.store.pages[r].wear = .intact n → n ≤ (t.page q).erases) ∧
          ((t.page q).erases = 0 ∨
            ∃ r : Fin 8, readStamp s.store.pages[r].wear = .intact (t.page q).erases))) ∧
      t.mode = (if 5 ≤ t.usable then .normal else if 3 ≤ t.usable then .degraded else .failed) ∧ t.wear = t.wearLevel ∧
      ((∀ q, unrecorded s.store.found (.pagebad q)) → (∀ q : Fin 8, s.store.pages[q].failures ≤ 1) → t.usable = 8)

/-- Each slot comes back from its latest intact SLOT record, its generations bound to the cells that hold their keys (R96, R98). A missing
OUTGOING or PENDING generation is dropped, the views that named it moving to CURRENT with FORCED (R99); a missing CURRENT empties the slot,
with CELL_LOST on both ports (R100); a slot so corrected awaits the correction, unless the store is FAILED (R101); a switch takes its full
grace (R103). A slot whose latest intact SLOT record is UNUSED comes back UNUSED with the record's highest generation seen (R58, R96),
nothing awaiting and no event of it raised. A slot with no intact SLOT record is UNUSED, its highest generation seen 0. -/
def Obligations.StartUpRebuildsTheSlots : Prop :=
  ∀ s : State, s.phase = .held → s.supply = true → s.rstn = true →
    ∃ t : Part, exec .startUp s = .next (s.withPart t) ∧
      (∀ i : Fin 16, (t.slot i).zeroizing = false ∧ (t.slot i).armed = false ∧
        (unrecorded s.store.found (.slot i) → t.slot i = .blank) ∧
        (∀ f p, latestIn s.store.found (.slot i) f → f.record.body? = some (.slot i p) → p.attrs = none →
          t.slot i = { Slot.blank with applied := { Pers.blank with highest := p.highest } } ∧
          ∀ e : Events, e = t.mpAside ∨ e = t.npAside →
            (e.cellLost.getD 0).getLsbD i.val = false ∧ (e.forced.getD 0).getLsbD i.val = false) ∧
        (∀ f p, latestIn s.store.found (.slot i) f → f.record.body? = some (.slot i p) → p.attrs ≠ none →
          ∃ cur out pen : Option Gen,
            s.store.binds i p.current cur ∧ s.store.binds i p.outgoing out ∧ s.store.binds i p.pending pen ∧
            (let lost : Prop := p.current ≠ none ∧ cur = none
             let moved (q : Port) : Prop := ¬ lost ∧ p.outgoing ≠ none ∧ out = none ∧ p.view q = some .outgoing
             let ahead (v : Option View) : Option View :=
               if p.outgoing ≠ none ∧ out = none then v.map (fun _ => View.current) else v
             let x : Pers :=
               if lost then { p with current := none, outgoing := none, pending := none, mpView := none, npView := none,
                                     onCommand := false }
               else { p with current := cur, outgoing := out, pending := pen, mpView := ahead p.mpView,
                             npView := ahead p.npView, onCommand := p.onCommand && pen.isSome }
             (t.slot i).applied = x ∧
             (t.slot i).graceLeft = (if x.state.inSwitch = true then p.attrs.map Attrs.grace else none) ∧
             (t.slot i).awaiting =
               (if (lost ∨ p.outgoing ≠ none ∧ out = none ∨ p.pending ≠ none ∧ pen = none) ∧ t.mode ≠ .failed then
                 [{ kind := .correction, ready := true, taken := false, source := .part }] else []) ∧
             ((t.mpAside.cellLost.getD 0).getLsbD i.val = decide lost ∧ (t.npAside.cellLost.getD 0).getLsbD i.val = decide lost) ∧
             ((t.mpAside.forced.getD 0).getLsbD i.val = true ↔ moved .mp) ∧
             ((t.npAside.forced.getD 0).getLsbD i.val = true ↔ moved .np)))) ∧
      (∀ c : Fin 48,
        (readCell s.store.cells[c] = .erased → t.cell c = .free) ∧
        (readCell s.store.cells[c] = .broken → t.cell c = .released none ∧ t.onList (.cellErase c) = true) ∧
        (∀ k, readCell s.store.cells[c] = .intact k →
          (∀ i : Fin 16, k.slot = slotByte i → { num := k.gen, cell := c } ∈ (t.slot i).applied.gens → t.cell c = .used i k.gen) ∧
          ((∀ i : Fin 16, k.slot = slotByte i → ∀ g ∈ (t.slot i).applied.gens, g ≠ { num := k.gen, cell := c }) →
            t.cell c = .released (some (k.slot, k.gen)) ∧ t.onList (.cellErase c) = true)))

/-- The windows after the counters step (R47, R102): one for every generation held in a slot that is not TRANSPORT. An issuing one starts
at T = P with a wanted reservation, or exhausted at 4,294,967,295; a PENDING one at T = 1; one without an intact CEIL record exhausted,
with S_cur 16; its grant counter and grant time are the model's choice of log entry 29. -/
def Obligations.StartUpReopensWindows : Prop :=
  ∀ s : State, s.phase = .held → s.supply = true → s.rstn = true →
    ∃ t : Part, exec .startUp s = .next (s.withPart t) ∧
      (∀ w ∈ t.windows, (t.slot w.slot).applied.cls ≠ some .transport ∧ ∃ g ∈ (t.slot w.slot).applied.gens, g.num = w.gen) ∧
      ∀ (i : Fin 16) (g : Gen), (t.slot i).applied.cls ≠ some .transport → g ∈ (t.slot i).applied.gens →
        let opened (low p d : Nat) (end_ : Bool) (r : Reservation) : Option Window := some
          { slot := i, gen := g.num, t := low, p := p, sCur := d, grantTime := 0, grantCounter := low, rateKnown := false,
            exhausted := end_, reservation := r, held := [] }
        (∀ f c d, latestIn s.store.found (.ceil i g.num) f → f.record.body? = some (.ceil i g.num c d) →
          (isGen (t.slot i).applied.pending g.num = true → t.window i g.num = opened 1 c d false .none) ∧
          (isGen (t.slot i).applied.pending g.num = false →
            (c ≠ 4294967295 → t.window i g.num = opened c c d false .wanted) ∧
            (c = 4294967295 → t.window i g.num = opened c c d true .none))) ∧
        (unrecorded s.store.found (.ceil i g.num) → t.window i g.num = opened 4294967295 4294967295 16 true .none)

/-- TAMP is sampled once the store has been replayed (R104): a line that stays active is a tamper event, any other leaves the cover
CLOSED. The ports then leave STARTING (R107): each has RESET with its cause, STORE where the mode is not NORMAL, and the events start-up
held aside; its mask enables every kind and its frame-error count is 0. The ring is settled (R105): with a spare page a full or missing head
is switched; without one the reclaim of the oldest page is placed, or the store is FAILED when it cannot make room. The want condition is then tested (R30), and each wanted reservation
of a generation that issues is queued, with its class-2 CEIL job on the list, unless PFW, the store or ZEROIZING forbids it (R106).
Nothing is written to the store. That nothing changes in another phase is the model's choice of log entry 7; that start-up ends without a
sample when the line reads inactive, and not with an active line unsampled, that of log entry 10. -/
def Obligations.StartUpSamplesAndLeaves : Prop :=
  ∀ s : State,
    (s.phase ≠ .replayed → ∀ stays : Bool, exec (.startUpTamperSample stays) s = .next s) ∧
    (s.phase = .replayed →
      (s.tamp = true → exec (.startUpTamperSample true) s = .next (s.withPart { s.toPart.tamper with phase := .sampled })) ∧
      (s.tamp = false → ∀ stays : Bool, exec (.startUpTamperSample stays) s =
        .next (s.withPart { s.toPart with cover := .closed, debounce := none, phase := .sampled })) ∧
      (s.tamp = true → exec (.startUpTamperSample false) s =
        .next (s.withPart { s.toPart with cover := .closed, debounce := some s.ms, phase := .sampled }))) ∧
    (¬ (s.phase = .sampled ∨ s.phase = .replayed ∧ s.tamp = false) → exec .leaveStarting s = .next s) ∧
    (s.phase = .sampled ∨ s.phase = .replayed ∧ s.tamp = false →
      ∃ t : Part, exec .leaveStarting s = .next (s.withPart t) ∧ t.phase = .running ∧ t.powerCause = false ∧
        t.store = s.store ∧ t.inFlight = s.inFlight ∧ t.lifecycle = s.lifecycle ∧ t.identity = s.identity ∧
        t.tamperCount = s.tamperCount ∧ t.cover = s.cover ∧ t.pfw = s.pfw ∧ t.ms = s.ms ∧ t.sec = s.sec ∧
        t.mpAside = .none ∧ t.npAside = .none ∧ (∀ i : Fin 16, (t.slot i).applied = (s.slot i).applied) ∧
        (let left (aside : Events) : Events :=
          { aside with
            reset := some (if s.powerCause = true then .power else .pin),
            store := if t.mode = .normal then none else some t.mode }
         t.mp.events = left s.mpAside ∧ t.np.events = left s.npAside) ∧
        t.mp.mask = 0x07FF ∧ t.np.mask = 0x07FF ∧ t.mp.errors = 0 ∧ t.np.errors = 0 ∧
        (s.mode = .failed → t.mode = .failed ∧ t.pages = s.pages ∧ t.reclaim = s.reclaim ∧ t.jobs = s.jobs) ∧
        (s.mode ≠ .failed →
          (∀ sp, s.spare = some sp →
            (s.headFree = true → t.pages = s.pages ∧ t.reclaim = s.reclaim) ∧
            (s.headFree = false → s.oneHead → s.headSwitched t sp)) ∧
          (s.spare = none →
            (s.noRoom = true → t.mode = .failed ∧ t.reclaim = none ∧ ∀ j ∈ t.jobs, j.id.isRing = false) ∧
            (s.noRoom = false → ∀ o, s.oldest = some o →
              ((s.page o).role = .closed ∨ ∃ (k : Fin 31) (r : Record), readRecord s.store.pages[o].records[k] = .intact r) →
              t.pages = s.pages ∧ t.reclaimPlaced o True))) ∧
        (t.mode ≠ .failed → ∀ (i : Fin 16) (g : Nat),
          let low (w : Window) : Prop := w.reservation = .none ∧ w.exhausted = false ∧ 4 * (w.p - w.t) ≤ w.sCur ∧
            w.p < 4294967295 ∧ (s.slot i).zeroizing = false
          let wants (w : Window) : Prop := (s.slot i).applied.issues g = true ∧ (w.reservation = .wanted ∨ low w)
          let may : Prop := s.pfw = false ∧ (s.slot i).zeroizing = false
          ((∀ w, s.window i g = some w → ¬ wants w) → t.window i g = s.window i g) ∧
          (∀ w, s.window i g = some w → wants w →
            (¬ may → t.window i g = some { w with reservation := .wanted }) ∧
            (may → t.window i g = some { w with reservation := .queued } ∧
              ∃ k ∈ t.jobs, k.id = .ceil i g ∧ k.cls ≤ 2 ∧ Requester.counterUnit ∈ k.requesters))))

/-! ### The lines and the timebase -/

/-- PFW asserted (R85, R86, R87, R42): every commit and every command whose record has not been taken is withdrawn and answered at once: a
command, a LOAD_PLAIN among them, and a LIFE change with POWER_LOW, an envelope with the verdict ENV_POWER, a request held on a queued
reservation with WINDOW_CLOSED (each said of a port that waits for that command alone, as R177 has it). A stopped commit is gone: no job on
the list is its step, its cell program and CEIL record have left, and its cell is RELEASED with its erase placed (R52, R83); the SLOT job of
a slot whose last waiting change was withdrawn leaves. The job in flight, what it carries, the store and the applied states stay. PFW
released (R88): the want condition is tested and each wanted reservation of a generation that issues is queued, with its class-2 CEIL job on
the list, unless the store is FAILED or the slot ZEROIZING; every other job and window stays. R88 lets the engine take a job first: the
release is then a taking of a job and the placing after it, and which of the two holds is left free. That PFW_ASSERTED on a line already
asserted, or in reset, changes at most the line, and PFW_RELEASED places again on a line already released, is the model's choice of log
entry 7; that a command a port restart has condemned is withdrawn too, that of log entry 41. -/
def Obligations.PowerFailGatesAndRefuses : Prop :=
  ∀ s : State,
    (s.pfw = true → exec .pfwAsserted s = .next s) ∧
    (s.phase = .held → exec .pfwAsserted s = .next (s.withPart { s.toPart with pfw := true })) ∧
    (s.pfw = false → s.phase ≠ .held → ∃ t : Part, exec .pfwAsserted s = .next (s.withPart t) ∧ t.pfw = true ∧
      (∀ i : Fin 16, (t.slot i).applied = (s.slot i).applied ∧
        (∀ c ∈ (t.slot i).awaiting, c.taken = false → c.isCommand = false ∧ c.kind.commit? = none) ∧
        (∀ c ∈ (s.slot i).awaiting, c.taken = true → c ∈ (t.slot i).awaiting)) ∧
      (∀ c ∈ t.lifeChanges, c.taken = true) ∧ (∀ w ∈ t.windows, w.reservation = .queued → w.held = []) ∧
      t.inFlight = s.inFlight ∧ t.store = s.store ∧ t.lifecycle = s.lifecycle ∧ t.mode = s.mode ∧ t.pages = s.pages ∧
      (∀ (q : Port),
        let me : Waiter := { port := q, condemned := false }
        let changes (only : Change → Prop) : Prop :=
          ∀ j : Fin 16, ∀ d ∈ (s.slot j).awaiting, (d.source = .command me ∨ q = .np ∧ d.source = .envelope) → only d
        let lives (only : LifeChange → Prop) : Prop := ∀ d ∈ s.lifeChanges, d.waiter = me → only d
        let holds (only : Held → Prop) : Prop := ∀ v ∈ s.windows, ∀ d ∈ v.held, d.waiter = me → only d
        let refused (w : Word) : Prop := (t.port q).job = .ready { words := [w], maker := .plain }
        (∀ (i : Fin 16) (c : Change), c ∈ (s.slot i).awaiting → c.taken = false →
          changes (· = c) → lives (fun _ => False) → holds (fun _ => False) →
          (c.source = .command me →
            (c.kind.commit? = none → ∀ d ∈ (s.slot i).awaiting, d.taken = false → d.kind.commit? = none) →
            refused (pair 0x1E c.kind.cmd.code)) ∧
          (q = .np → c.source = .envelope → c.kind.commit? ≠ none → s.receiver.condemned = false →
            t.receiver = { s.receiver with state := .verdict, verdict := some .envPower, cell := none } ∧
            ∃ items, (t.port q).job = .ready { words := 0x2D22 :: items, maker := .verdict })) ∧
        (∀ c, c ∈ s.lifeChanges → c.taken = false → c.waiter = me →
          changes (fun _ => False) → lives (· = c) → holds (fun _ => False) → refused (pair 0x1E c.cmd.code)) ∧
        (∀ w h, w ∈ s.windows → w.reservation = .queued → h ∈ w.held → h.waiter = me →
          changes (fun _ => False) → lives (fun _ => False) → holds (· = h) → refused (pair 0x16 h.request.cmd.code))) ∧
      (∀ (i : Fin 16) (c : Change) (k : Nat) (m : Commit),
        c ∈ (s.slot i).awaiting → c.taken = false → c.kind.commit? = some k → s.commit k = some m →
        t.commit k = none ∧ (∀ j ∈ t.jobs, ∀ n, (k, n) ∉ j.commits) ∧
        ((s.jobs.map Job.id).Nodup → ∀ j ∈ s.jobs, ∀ n, (k, n) ∈ j.commits →
          ((∃ x, j.id = .cellProgram x) ∨ ∃ a g, j.id = .ceil a g) → t.onList j.id = false) ∧
        ∀ x, m.cell = some x → (∃ was, t.cell x = .released was) ∧ t.onList (.cellErase x) = true) ∧
      (∀ i : Fin 16, (∃ c ∈ (s.slot i).awaiting, c.taken = false) → (∀ c ∈ (t.slot i).awaiting, c.taken = true) →
        t.onList (.slot i) = false)) ∧
    (s.phase ≠ .running → exec .pfwReleased s = .next (s.withPart { s.toPart with pfw := false })) ∧
    (s.phase = .running → s.pfw = true →
      let released := s.withPart { s.toPart with pfw := false, draws := s.draws + 1 }
      (∃ t, exec .pfwReleased s = .next t ∧ t.pfw = false) ∧
      (exec .pfwReleased s = exec .pfwReleased released ∨
        ∃ u, exec .peTakeJob released = .next u ∧ exec .pfwReleased s = exec .pfwReleased u)) ∧
    (s.phase = .running → s.pfw = false → ∃ (ws : List Window) (js : List Job) (n : Nat),
      exec .pfwReleased s = .next (s.withPart { s.toPart with windows := ws, jobs := js, nextAge := n }) ∧
      (∀ j ∈ s.jobs, (∀ i g, j.id ≠ .ceil i g) → j ∈ js) ∧ (∀ j ∈ s.jobs, ∃ k ∈ js, k.id = j.id) ∧
      (∀ k ∈ js, k ∈ s.jobs ∨ ∃ i g, k.id = .ceil i g) ∧
      ∀ (i : Fin 16) (g : Nat),
        let low (w : Window) : Prop := w.reservation = .none ∧ w.exhausted = false ∧ 4 * (w.p - w.t) ≤ w.sCur ∧ w.p < 4294967295 ∧
          (s.slot i).zeroizing = false
        let wants (w : Window) : Prop := (s.slot i).applied.issues g = true ∧ (w.reservation = .wanted ∨ low w)
        let may : Prop := s.mode ≠ .failed ∧ (s.slot i).zeroizing = false
        ((∀ w, s.window i g = some w → ¬ wants w) → windowIn ws i g = s.window i g) ∧
        (∀ w, s.window i g = some w → wants w →
          (¬ may → windowIn ws i g = some { w with reservation := .wanted }) ∧
          (may → windowIn ws i g = some { w with reservation := .queued } ∧
            ∃ k ∈ js, k.id = .ceil i g ∧ k.cls ≤ 2 ∧ Requester.counterUnit ∈ k.requesters)))

/-- A tamper event (R169, R170): due when the line has read active against a CLOSED cover for 20 ms. The count rises by 1 and holds at
4,294,967,295; the TAMPER job is placed unless the store is FAILED; every slot marked erase-on-tamper that holds a generation is ZEROIZING
at once, with one zeroize change and its SLOT job of class 3, its other changes not taken withdrawn, its windows' held requests and queued
reservations gone and its chains aborted; the SLOT job is a new one, or, beside a record of the slot in flight, the one that waited, with
its age, if it was no step of a commit (R75, R76, R83); TAMPER is set on both ports with the slots in ZEROIZING. No applied state and no
stored item changes. An EMPTY or UNUSED slot whose projected state is marked so and with a LOAD_PLAIN or RENEW awaiting loses its changes
not taken, a LOAD_PLAIN with SLOT_STATE and a RENEW with ENV_TAMPER, and is armed for the record in flight if one has taken changes of it
(R171). The envelope whose checks are being made for a slot that enters ZEROIZING gets ENV_TAMPER, its unwrap job withdrawn or its result
discarded (R126). That the event is a row with the millisecond reading, which only reads it when it is not due, is the model's choice of log
entries 6 and 7; the codes of other commands of R171 are that of log entry 39, and that the SLOT job is a new one where the withdrawal
empties the awaiting list that of log entry 35. -/
def Obligations.TamperEventZeroizes : Prop :=
  ∀ (s : State) (now : Count),
    let due : Prop := s.phase = .running ∧ s.cover = .closed ∧ s.tamp = true ∧ ∃ d, s.debounce = some d ∧ 20 ≤ (now - d).toNat
    let erased (i : Fin 16) : Prop :=
      (s.slot i).zeroizing = false ∧ (s.slot i).applied.gens ≠ [] ∧ ∃ a, (s.slot i).applied.attrs = some a ∧ a.erase = true
    (¬ due → exec (.tamperEvent now) s =
      .next (s.withPart { s.toPart with ms := if s.phase = .held then s.ms else now })) ∧
    (due → ∃ t : Part, exec (.tamperEvent now) s = .next (s.withPart t) ∧
      t.ms = now ∧ t.cover = .opened ∧ t.debounce = none ∧ t.tamperCount = min (s.tamperCount + 1) 4294967295 ∧
      t.store = s.store ∧ t.inFlight = s.inFlight ∧ t.lifecycle = s.lifecycle ∧ t.identity = s.identity ∧ t.mode = s.mode ∧
      (s.mode ≠ .failed → t.onList .tamper = true) ∧
      (∀ p : Port, (t.port p).events.tamper =
        some (((s.port p).events.tamper).getD 0 ||| maskOf (fun i => (t.slot i).zeroizing))) ∧
      (∀ i : Fin 16, (t.slot i).applied = (s.slot i).applied ∧ (t.slot i).graceLeft = (s.slot i).graceLeft ∧
        ((t.slot i).zeroizing = true ↔ (s.slot i).zeroizing = true ∨ erased i) ∧
        (erased i →
          (∃ k ∈ t.jobs, k.id = .slot i ∧ k.cls ≤ 3 ∧ Requester.keyStore ∈ k.requesters ∧
            (s.onList (.slot i) = false ∨ (s.slot i).awaiting ≠ [] ∧ (∀ c ∈ (s.slot i).awaiting, c.taken = false) →
              s.nextAge ≤ k.age) ∧
            (∀ j ∈ s.jobs, j.id = .slot i → (∀ x ∈ s.jobs, x.id = .slot i → x = j) → j.commits = [] → j.age < s.nextAge →
              (∃ c ∈ (s.slot i).awaiting, c.taken = true) → k.age = j.age)) ∧
          (t.slot i).awaiting = (s.slot i).awaiting.filter (fun c => c.taken) ++
            [{ kind := .zeroize, ready := true, taken := false, source := .part }] ∧
          (∀ w ∈ t.windows, w.slot = i → w.held = [] ∧ (w.reservation = .none ∨ w.reservation = .inFlight)) ∧
          (∀ p x, s.te.run = none → s.te.context p = some x → x.slot = i →
            t.te.context p = none ∧ (t.port p).events.chainAbort = true))) ∧
      (∀ i : Fin 16, (s.slot i).zeroizing = false → (s.slot i).applied.gens = [] → (s.slot i).graceLeft = none →
        (∃ a, (s.projected i).attrs = some a ∧ a.erase = true) →
        (∃ c ∈ (s.slot i).awaiting, (∃ a g d k, c.kind = .load a g d k) ∨ ∃ m g r d k, c.kind = .renew m g r d k) →
        (t.slot i).awaiting = (s.slot i).awaiting.filter (fun c => c.taken) ∧
        ((∃ c ∈ (s.slot i).awaiting, c.taken = true) → (t.slot i).armed = true) ∧
        ((∀ c ∈ (s.slot i).awaiting, c.taken = false) → (t.slot i).armed = (s.slot i).armed ∧ t.onList (.slot i) = false) ∧
        ((∀ l : Fin 16, l ≠ i → (s.slot l).awaiting = []) → (∀ w ∈ s.windows, w.held = []) → s.receiver.state ≠ .checking →
          let alone (c : ChangeKind) (r : Source) : Prop :=
            (s.slot i).awaiting = [{ kind := c, ready := false, taken := false, source := r }]
          (∀ a g d k p, alone (.load a g d k) (.command { port := p, condemned := false }) →
            t.commit k = none ∧ (t.port p).job = .ready { words := [0x1331], maker := .plain }) ∧
          (∀ m g r d k, alone (.renew m g r d k) .envelope → s.receiver.condemned = false →
            t.commit k = none ∧ t.receiver = { s.receiver with state := .verdict, verdict := some .envTamper, cell := none }))) ∧
      (∀ e, s.receiver.state = .checking → parseEnvelope s.receiver.bytes = some e → erased e.slot →
        (∀ (l : Fin 16), ∀ c ∈ (s.slot l).awaiting, c.source ≠ .envelope) →
        t.te.er = none ∧ (∀ r, s.te.run = some r → r.client = .er → ∃ x, t.te.run = some x ∧ x.condemned = true) ∧
        t.receiver = (if s.receiver.condemned = true then .blank
          else { s.receiver with state := .verdict, verdict := some .envTamper, cell := none })))

/-- One step of the second count (R10, R25): the grace remaining of every slot falls by 1 and stays at 0, but in ZEROIZING, where it
stands. A slot whose count stands at 0 and whose projected state holds an OUTGOING generation is given a grace expiry, ready at once, with
a class-4 SLOT job (R138); one that already awaits it, or holds none, is not. That the expiry
is a row apart from the tick and that one expiry awaits at a time is the model's choice of log entry 8, that the tick lowers no grace in
STARTING that of log entry 6, and that a row that is not due changes nothing that of log entry 7. -/
def Obligations.GraceCountsDown : Prop :=
  ∀ s : State,
    (s.phase = .held → exec .graceCountdownTick s = .next s) ∧
    ((s.phase = .replayed ∨ s.phase = .sampled) →
      exec .graceCountdownTick s = .next (s.withPart { s.toPart with sec := s.sec + 1 })) ∧
    (s.phase = .running → exec .graceCountdownTick s = .next (s.withPart
      { s.toPart with
        sec := s.sec + 1,
        slots := s.slots.map (fun x =>
          if x.zeroizing = true then x else { x with graceLeft := x.graceLeft.map (fun n => n - 1) }) })) ∧
    (∀ i : Fin 16,
      let due : Prop := s.phase = .running ∧ (s.slot i).graceLeft = some 0 ∧ (s.slot i).zeroizing = false ∧
        (s.projected i).outgoing ≠ none ∧ ∀ c ∈ (s.slot i).awaiting, c.kind ≠ .expiry
      (¬ due → exec (.graceExpiry i) s = .next s) ∧
      (due → exec (.graceExpiry i) s = .next (s.withPart
        { s.toPart with
          slots := s.slots.set i { s.slot i with
            awaiting := (s.slot i).awaiting ++ [{ kind := .expiry, ready := true, taken := false, source := .part }] },
          jobs := putJob { id := .slot i, cls := 4, age := s.nextAge, requesters := [.keyStore], commits := [] } s.jobs,
          nextAge := s.nextAge + 1 })))

/-- Times that run out, each the difference of two readings modulo 2 to the 32 (R25): a chain without a step for 500 ms is aborted with
CHAIN_ABORT (R157), an envelope that has not been fed for 2 s is discarded with ENV_ABORT (R111), a seal window closes after 10 s (R167),
and the cover is CLOSED, silently, when the line has read inactive for 20 ms (R169). Before that, only the millisecond count is read; in
reset nothing changes. A chain whose step runs is marked, and aborted when the step ends, but a running CHAIN_CLOSE ends it by itself (R148,
R158). A change of the line starts its debounce, or ends it (R169). That a row before its time sets the millisecond count and does nothing
more, and nothing in reset, is the model's choice of log entries 6 and 7; the moment of a marked chain's abort is that of log entry 19. -/
def Obligations.ElapsedTimersEnd : Prop :=
  ∀ (s : State) (now : Count),
    let read : Part := { s.toPart with ms := now }
    (s.phase = .held → (∀ p, exec (.chainInactivity p now) s = .next s) ∧ exec (.envFillTimeout now) s = .next s ∧
      exec (.sealWindowExpiry now) s = .next s ∧ exec (.coverClosed now) s = .next s) ∧
    (s.phase = .running →
      (∀ p : Port,
        ((∀ x, s.te.context p = some x → (now - x.last).toNat < 500) →
          exec (.chainInactivity p now) s = .next (s.withPart read)) ∧
        (∀ x, s.te.context p = some x → 500 ≤ (now - x.last).toNat → s.te.runningStep p = none →
          exec (.chainInactivity p now) s = .next (s.withPart ({ read with te := s.te.dropContext p }.setPort p
            { s.port p with events := { (s.port p).events with chainAbort := true, chainAbortNew := true } })))) ∧
      (∀ (p : Port) (x : Context) (r : TagRun) (j : TagJob), s.te.context p = some x → 500 ≤ (now - x.last).toNat →
        s.te.run = some r → s.te.runningStep p = some j →
        ((∃ u, j = .chainClose u) → exec (.chainInactivity p now) s = .next (s.withPart read)) ∧
        ((∀ u, j ≠ .chainClose u) → exec (.chainInactivity p now) s = .next (s.withPart
          { read with te := { s.te with run := some { r with abort := if r.abort = .no then .event else r.abort } } }))) ∧
      ((s.receiver.state ≠ .filling ∨ ∀ d, s.receiver.fillTimer = some d → (now - d).toNat < 2000) →
        exec (.envFillTimeout now) s = .next (s.withPart read)) ∧
      (∀ d, s.receiver.state = .filling → s.receiver.fillTimer = some d → 2000 ≤ (now - d).toNat →
        exec (.envFillTimeout now) s = .next (s.withPart { read with
          receiver := .blank, np := { s.np with events := { s.np.events with envAbort := true, envAbortNew := true } } })) ∧
      ((∀ p d, s.sealWindow = some (p, d) → (now - d).toNat < 10000) →
        exec (.sealWindowExpiry now) s = .next (s.withPart read)) ∧
      (∀ p d, s.sealWindow = some (p, d) → 10000 ≤ (now - d).toNat →
        exec (.sealWindowExpiry now) s = .next (s.withPart { read with sealWindow := none })) ∧
      (¬ (s.cover = .opened ∧ s.tamp = false ∧ ∃ d, s.debounce = some d ∧ 20 ≤ (now - d).toNat) →
        exec (.coverClosed now) s = .next (s.withPart read)) ∧
      (∀ d, s.cover = .opened → s.tamp = false → s.debounce = some d → 20 ≤ (now - d).toNat →
        exec (.coverClosed now) s = .next (s.withPart { read with cover := .closed, debounce := none }))) ∧
    (∀ active : Bool,
      ((s.phase = .held ∨ s.phase = .replayed) →
        exec (.tampLineChange active) s = .next (s.withPart { s.toPart with tamp := active })) ∧
      ((s.phase = .sampled ∨ s.phase = .running) →
        exec (.tampLineChange active) s = .next (s.withPart { s.toPart with
          tamp := active,
          debounce := if (active = true ↔ s.cover = .opened) then none else some (s.debounce.getD s.ms) })))

/-! ### The program engine (chapters 2 to 4) -/

/-- The engine takes no job while it is gated or while one is in flight (R78, R85). Otherwise it takes the takeable job that no other
precedes: the lower class first, then an open commit's step, of two that of the commit whose first step is older, then the older (R76, R78).
Takeable (R77): a record or a carry-forward step with a stamped head that has a free position; a SLOT record once its first change is ready;
a commit's step once the step before it has verified; a carry-forward step once the earlier ones of its page have ended; a page erase once
all have; a wear stamp once the page erase has; the others always. That a page with no live record needs no head position for its steps is
the model's choice of log entry 23. A record job takes the head's lowest free position and the next sequence number, with its payload
composed at this moment (R55, R56, R59, R79): a reservation's ceiling from the stride of this moment (R32, R36), a commit's first window
(R26), the slot with its ready changes folded in (R15), the projected lifecycle (R162), the tamper count, the page found bad. A live record
is carried with its kind, slot and payload; one that is not live is passed over, its step leaving the list with nothing programmed and no
position or number used (R62), and after the last step of a RETIRING page the page is BAD without an erase (R63). The key leaves the commit
with its cell program (R119, R165). A page at its erase limit is BAD instead of being erased, and the reclaim moves on to the oldest page
left (R63, R66, R67). When the ring cannot make room for a job that must be placed, the store is FAILED first (R65, R77): a reservation is
abandoned (R38), a change or LIFE change refused with STORE, a grace expiry stays awaiting (R17). -/
def Obligations.EngineTakesTheFirstJob : Prop :=
  (∀ (s : Part) (j : Job), s.mode ≠ .failed →
    let head : Prop := s.headStamped = true ∧ ∃ h, s.head = some h ∧ (s.page h).used < 31
    let stepped : Prop := ∀ n k m, (n, k) ∈ j.commits → s.commit n = some m → k ≤ m.verified + 1
    let carries (p : Fin 8) (k : Job) : Prop := ∃ m, k.id = .carry p m
    (s.takeable j = true ↔ match j.id with
      | .ceil _ _ => head ∧ stepped
      | .slot i => head ∧ stepped ∧ ∃ c l, (s.slot i).awaiting = c :: l ∧ c.ready = true
      | .life | .tamper | .pagebad _ => head
      | .carry p _ => (head ∨ s.pageLive p = false) ∧ ∀ k ∈ s.jobs, carries p k → j.age ≤ k.age
      | .pageErase p => ∀ k ∈ s.jobs, ¬ carries p k
      | .header p .wear => s.onList (.pageErase p) = false
      | .header _ .sequence | .header _ .both | .cellProgram _ | .cellErase _ => True)) ∧
  ∀ s : State,
    ((s.pfw = true ∨ s.phase ≠ .running ∨ s.inFlight ≠ none) → exec .peTakeJob s = .next s) ∧
    (s.pfw = false → s.phase = .running → s.inFlight = none → s.noRoom = false →
      ((∀ j ∈ s.jobs, s.takeable j = false) → exec .peTakeJob s = .next s) ∧
      (∀ j ∈ s.jobs, s.takeable j = true → s.mode ≠ .failed →
        let openOf (k : Job) (c : Commit) : Prop := c ∈ s.commits ∧ c.opened = true ∧ ∃ n, (c.id, n) ∈ k.commits
        let opened (k : Job) : Prop := ∃ c, openOf k c
        (∀ k ∈ s.jobs, s.takeable k = true → k = j ∨ j.cls < k.cls ∨
          j.cls = k.cls ∧ ((∃ c, openOf j c ∧ ∀ d, openOf k d → c.firstAge < d.firstAge) ∨
            ¬ opened j ∧ ¬ opened k ∧ j.age < k.age)) →
        let taken : Part :=
          { s.toPart with
            jobs := s.jobs.filter (fun k => k.id != j.id),
            commits := s.commits.map (fun c => if j.commits.any (fun x => x.1 == c.id) then { c with opened := true } else c) }
        let starts (t : Part) (w : Work) : Prop :=
          exec .peTakeJob s = .next (s.withPart { t with inFlight := some { job := j, work := w } })
        let records (t : Part) (b : Body) : Prop := ∀ p k, s.headPosition = some (p, k) →
          starts { t with nextSeq := s.nextSeq + 1 } (.record p k s.nextSeq b)
        (∀ i g w a, j.id = .ceil i g → j.commits = [] → s.window i g = some w → (s.slot i).applied.attrs = some a →
          let d := w.stride s.sec a.smin s.wear s.mode
          records { taken with windows := s.windows.map (fun v =>
            if v.slot = i ∧ v.gen = g then { v with reservation := .inFlight } else v) } (.ceil i g (newCeiling w.p d) d)) ∧
        (∀ i g n r a c d, j.id = .ceil i g → j.commits = [(n, 2)] → (s.slot i).awaiting = [{ kind := d, ready := false, taken := false, source := r }] →
          (d = .load a g c n ∨ (s.slot i).applied.attrs = some a ∧ ∃ im gr, d = .renew im g gr c n) →
          records taken (.ceil i g (1 + a.smin) a.smin)) ∧
        (∀ i g n a, j.id = .ceil i g → j.commits = [(n, 2)] → (∀ c ∈ (s.slot i).awaiting, ∀ b h e, c.kind ≠ .load b h e n) →
          (s.projected i).attrs = some a → records taken (.ceil i g (1 + a.smin) a.smin)) ∧
        (∀ i, j.id = .slot i →
          let ready := (s.slot i).awaiting.takeWhile (fun c => c.ready)
          records { taken with slots := s.slots.set i { s.slot i with
              awaiting := ready.map (fun c => { c with taken := true }) ++ (s.slot i).awaiting.dropWhile (fun c => c.ready) } }
            (.slot i (ready.foldl (fun p c => p.fold c.kind) (s.slot i).applied))) ∧
        (j.id = .life →
          records { taken with lifeChanges := s.lifeChanges.map (fun c => { c with taken := true }) }
            (.life s.projectedLife s.projectedIdentity)) ∧
        (j.id = .tamper → records taken (.tamper s.tamperCount)) ∧
        (∀ q, j.id = .pagebad q → records taken (.pagebad q)) ∧
        (∀ q i r p k, j.id = .carry q i → s.liveAt q i = true → readRecord s.store.pages[q].records[i] = .intact r →
          s.headPosition = some (p, k) →
          starts { taken with nextSeq := s.nextSeq + 1 } (.carry p k { r with seq := s.nextSeq })) ∧
        (∀ q i, j.id = .carry q i → s.liveAt q i = false →
          let last : Prop := s.reclaim = some q ∧ (s.page q).role = .retiring ∧ ∀ k ∈ s.jobs, k.id ≠ j.id → ∀ m, k.id ≠ .carry q m
          (¬ last → s.headFree = true ∨ s.spare = none → exec .peTakeJob s = .next (s.withPart taken)) ∧
          (¬ last → s.headFree = false → s.oneHead → ∀ sp, s.spare = some sp → ∃ t : Part,
            exec .peTakeJob s = .next (s.withPart t) ∧ t.inFlight = none ∧ t.store = s.store ∧ t.nextSeq = s.nextSeq ∧
            taken.headSwitched t sp) ∧
          (last → s.headFree = true → ∃ t : Part, exec .peTakeJob s = .next (s.withPart t) ∧ t.inFlight = none ∧ t.store = s.store ∧
            t.nextSeq = s.nextSeq ∧ (∀ p, s.head = some p → t.page p = s.page p) ∧ taken.pageRetired t q)) ∧
        (∀ q, j.id = .pageErase q → (s.page q).erases < 100000 → starts taken (.pageErase q)) ∧
        (∀ q, j.id = .pageErase q → 100000 ≤ (s.page q).erases →
          ∃ t : Part, exec .peTakeJob s = .next (s.withPart t) ∧ t.inFlight = none ∧ t.store = s.store ∧ (t.page q).role = .bad ∧
            (∀ f ∈ t.facts, f.page ≠ q) ∧ t.onList (.pageErase q) = false ∧
            (t.mode ≠ .failed → t.onList (.pagebad q) = true ∧
              (s.headFree = true → s.head ≠ some q → ∀ o, (s.pageGone q).oldest = some o → (s.page o).role = .closed →
                t.reclaimPlaced o (t.pageLive o = true)))) ∧
        (∀ q, j.id = .header q .wear → starts taken (.header q (some (s.page q).erases) none)) ∧
        (∀ q n, (s.page q).seq = some n →
          (j.id = .header q .sequence → starts taken (.header q none (some n))) ∧
          (j.id = .header q .both → starts taken (.header q (some (s.page q).erases) (some n)))) ∧
        (∀ c n l m key, j.id = .cellProgram c → j.commits = (n, 1) :: l → s.commit n = some m → m.key = some key →
          starts { taken with commits := taken.commits.map (fun x => if x.id = n then { x with key := none } else x) }
            (.cellProgram c m.slot m.gen key)) ∧
        (∀ c, j.id = .cellErase c → starts taken (.cellErase c)))) ∧
    (s.pfw = false → s.phase = .running → s.inFlight = none → s.noRoom = true → s.mode ≠ .failed →
      (∃ j ∈ s.jobs, j.id.isRecord = true ∨ ∃ q k, j.id = .carry q k ∧ s.liveAt q k = true) →
      ∃ t : Part, exec .peTakeJob s = .next (s.withPart t) ∧ t.mode = .failed ∧ t.modeFell ∧ t.store = s.store ∧ t.pages = s.pages ∧
        ∀ j, s.jobs = [j] →
          (∀ i g w, j.id = .ceil i g → j.commits = [] → s.window i g = some w → (w.held.map (fun h => h.waiter.port)).Nodup →
            t.window i g = some { w with reservation := .wanted, held := [] } ∧
            ∀ h ∈ w.held, h.waiter.condemned = false →
              (t.port h.waiter.port).job = .ready { words := [pair 0x16 h.request.cmd.code], maker := .plain }) ∧
          (∀ i c p, j.id = .slot i → (s.slot i).awaiting = [c] → c.taken = false → c.kind.commit? = none → c.kind ≠ .expiry →
            (s.slot i).graceLeft ≠ some 0 → c.source = .command { port := p, condemned := false } →
            (t.slot i).awaiting = [] ∧ (t.port p).job = .ready { words := [pair 0x1C c.kind.cmd.code], maker := .plain }) ∧
          (∀ i c, j.id = .slot i → (s.slot i).awaiting = [c] → c.kind = .expiry → (t.slot i).awaiting = [c]) ∧
          (∀ c p, j.id = .life → s.lifeChanges = [c] → c.taken = false → c.waiter = { port := p, condemned := false } →
            t.lifeChanges = [] ∧ (t.port p).job = .ready { words := [pair 0x1C c.cmd.code], maker := .plain }))

/-- A verified CEIL record (R59, R82). It stands in the head and in the fact index. A reservation's grants its window (R37): P and S_cur are
the record's, grant time is this second, grant counter is T, rate known is yes; the held requests are then issued T in arrival order while T
is below P, a condemned one's value being consumed without a job, its port's pending place and reply staying as they are (R159); and the
want condition is tested again (R30). A commit's makes the commit's change ready (R15, R84). -/
def Obligations.VerifiedCeilingGrants : Prop :=
  ∀ (s : State) (j : Job) (p : Fin 8) (k : Fin 31) (n : Nat) (i : Fin 16) (g c d : Nat),
    s.inFlight = some { job := j, work := .record p k n (.ceil i g c d) } → s.head = some p → k.val + 1 < 31 →
    ∃ t : Part, exec (.recordProgramDone true) s = .next (s.withPart t) ∧ t.inFlight = none ∧
      t.store.pages[p].records[k] = encodeRecord ((Body.ceil i g c d).record n) ∧
      t.facts = s.facts.filter (fun f => f.key != .ceil i g) ++ [{ key := .ceil i g, page := p, pos := k, seq := n }] ∧
      (t.page p).used = k.val + 1 ∧ t.slots.map Slot.applied = s.slots.map Slot.applied ∧
      (∀ w, j.commits = [] → s.window i g = some w → w.reservation = .inFlight → w.exhausted = false → w.t ≤ c → w.t < maxCounter →
        c ≤ maxCounter →
        let m := min w.held.length (c - w.t)
        let low := (s.slot i).applied.issues g = true ∧ (s.slot i).zeroizing = false ∧ w.t + m < maxCounter ∧
          4 * (c - (w.t + m)) ≤ d ∧ c < maxCounter
        (∃ r, t.window i g = some
            { w with t := w.t + m, p := c, sCur := d, grantTime := s.sec, grantCounter := w.t, rateKnown := true,
                     exhausted := decide (w.t + m = maxCounter), reservation := r, held := [] } ∧
          (¬ low → r = .none) ∧ (low → s.pfw = true ∨ s.mode = .failed → r = .wanted) ∧
          (low → s.pfw = false → s.mode ≠ .failed → r = .queued ∧ t.onList (.ceil i g) = true)) ∧
        (∀ (x : Nat) (h : Held), w.held[x]? = some h → (w.held.map (fun y => y.waiter.port)).Nodup → h.waiter.condemned = false →
          (x < m → t.te.pendingOf (clientOf h.waiter.port) = some (h.request.job i g (w.t + x))) ∧
          (m ≤ x → (t.port h.waiter.port).job = .ready { words := [pair 0x15 h.request.cmd.code], maker := .plain })) ∧
        (∀ (x : Nat) (h : Held), w.held[x]? = some h → (w.held.map (fun y => y.waiter.port)).Nodup → h.waiter.condemned = true →
          t.te.pendingOf (clientOf h.waiter.port) = s.te.pendingOf (clientOf h.waiter.port) ∧
          (t.port h.waiter.port).job = (s.port h.waiter.port).job)) ∧
      (∀ x m, j.commits = [(x, 2)] → s.commit x = some m →
        t.commit x = some { m with verified := 2 } ∧ t.windows = s.windows ∧ t.jobs = s.jobs ∧
        (t.slot m.slot).awaiting =
          (s.slot m.slot).awaiting.map (fun y => if y.kind.commit? = some x then { y with ready := true } else y))

/-- A verified SLOT record becomes the slot's applied state, and the changes it carried leave the list (R16); the other slots stay. A
generation it removed loses its window and its cell, whose erase is placed (R26, R52), and the chains bound to it are aborted (R158); a
generation it brings in opens a window of S_min values from 1 (R26), and one that begins to issue, as the new CURRENT of an activation does,
takes grant time at this second, its window else as it was (R26, R132); requests held on a removed generation are refused with NO_GEN (R16,
R43); a switch it begins takes the slot's grace (R10). Each command it carried is answered (R132, R137, R165, R166), an envelope gets
COMMITTED, its commit ended (R84), and an expiry that moved a port's view sets FORCED there (R140), also where an ADOPT of the port behind it
moved the view again, the model's choice of log entry 50; a port whose view no expiry of the record moved is not given FORCED. In a record of
several changes CURRENT and OUTGOING of a reply, "retired" of an ADOPT and highest generation seen of an UNLOAD are as the command's own
change leaves them and grace remaining as the record leaves it, the model's choices of log entries 37, 49 and 51. Changes still awaiting have their SLOT job (R15); that none stays where none awaits is the model's choice of log entry 35. The
tamper event that waited for the record makes the slot ZEROIZING (R171). A verified LIFE record gives the lifecycle and the identity and
answers its command (R162). -/
def Obligations.VerifiedSlotAndLifeRecordsApply : Prop :=
  ∀ (s : State) (j : Job) (p : Fin 8) (k : Fin 31) (n : Nat), s.head = some p → k.val + 1 < 31 →
    (∀ (i : Fin 16) (new : Pers) (l : List Change),
      s.inFlight = some { job := j, work := .record p k n (.slot i new) } →
      (s.slot i).awaiting.filter (fun x => x.taken) = l → new = l.foldl (fun x c => x.fold c.kind) (s.slot i).applied →
      let old := (s.slot i).applied
      ∃ t : Part, exec (.recordProgramDone true) s = .next (s.withPart t) ∧ t.inFlight = none ∧
        (t.slot i).applied = new ∧ (t.slot i).armed = false ∧ (∀ m : Fin 16, m ≠ i → t.slot m = s.slot m) ∧
        { key := .slot i, page := p, pos := k, seq := n } ∈ t.facts ∧
        (∀ w ∈ t.windows, w.slot = i → ∃ g ∈ new.gens, g.num = w.gen) ∧
        (∀ x m, x ∈ l → x.kind.commit? = some m → t.commit m = none) ∧
        ((s.slot i).armed = true → ((∃ a, new.attrs = some a ∧ a.erase = true) ∧ new.gens ≠ []) →
          (t.slot i).zeroizing = true ∧ t.onList (.slot i) = true ∧
          (t.slot i).awaiting = [{ kind := .zeroize, ready := true, taken := false, source := .part }] ∧
          (s.phase = .running → ∀ q : Port,
            (t.port q).events.tamper = some (((s.port q).events.tamper).getD 0 ||| BitVec.ofNat 16 (2 ^ i.val)))) ∧
        ((s.slot i).armed = false ∨ (∀ a, new.attrs = some a → a.erase = false) ∨ new.gens = [] →
          (t.slot i).awaiting = (s.slot i).awaiting.filter (fun x => !x.taken) ∧
          ((t.slot i).awaiting ≠ [] ↔ t.onList (.slot i) = true) ∧
          (t.slot i).zeroizing = ((s.slot i).zeroizing && !l.any (fun x => x.kind = .zeroize)) ∧
          (t.slot i).graceLeft = (if new.state.inSwitch = true then
            (if old.state.inSwitch = true ∧ genNumber old.outgoing = genNumber new.outgoing then (s.slot i).graceLeft
             else new.attrs.map Attrs.grace) else none) ∧
          ((old.gens.map Gen.num).Nodup → (old.gens.map Gen.cell).Nodup →
            ∀ g ∈ old.gens, (∀ h ∈ new.gens, h.num ≠ g.num) →
              (s.cell g.cell = .used i g.num → (∀ x ∈ l, ∀ d, x.kind.cell? = some d → d ≠ g.cell) →
                t.cell g.cell = .released (some (slotByte i, g.num)) ∧ t.onList (.cellErase g.cell) = true) ∧
              (∀ q x, s.te.run = none → s.te.context q = some x → x.slot = i → x.gen = g.num →
                t.te.context q = none ∧ (s.phase = .running → (t.port q).events.chainAbort = true))) ∧
          (∀ a g, new.attrs = some a → a.cls ≠ .transport → 1 ≤ a.smin → g ∈ new.gens → s.window i g.num = none →
            t.window i g.num = some
              { slot := i, gen := g.num, t := 1, p := min (1 + a.smin) 4294967295, sCur := a.smin, grantTime := s.sec,
                grantCounter := 1, rateKnown := false, exhausted := false, reservation := .none, held := [] }) ∧
          (∀ a g w, new.attrs = some a → a.cls ≠ .transport → g ∈ new.gens → s.window i g.num = some w →
            (new.issues g.num = true → old.issues g.num = false → ∃ r,
              t.window i g.num = some { w with grantTime := s.sec, reservation := r } ∧
              (w.reservation ≠ .none → r = w.reservation)) ∧
            (new.issues g.num = false ∨ old.issues g.num = true → t.window i g.num = some w)) ∧
          (∀ g w h q, s.window i g = some w → (∀ x ∈ new.gens, x.num ≠ g) → h ∈ w.held →
            h.waiter = { port := q, condemned := false } →
            (∀ v ∈ s.windows, v.slot = i → ∀ x ∈ v.held, x.waiter = { port := q, condemned := false } → x = h) →
            (∀ x ∈ l, x.source ≠ .command { port := q, condemned := false } ∧ (x.source = .envelope → q ≠ .np)) →
            (t.port q).job = .ready { words := [pair 0x14 h.request.cmd.code], maker := .plain }) ∧
          (s.receiver.condemned = false → (∃ x ∈ l, x.source = .envelope) →
            t.receiver = { s.receiver with state := .verdict, verdict := some .committed, cell := none } ∧
            ((∀ x ∈ l, ∀ w, x.source = .command w → w.port ≠ .np) → ∃ items,
              (t.port .np).job = .ready { words := 0x2022 :: items, maker := .verdict })) ∧
          (s.phase = .running → ∀ q : Port,
            let moved : Prop := ∃ before c after, l = before ++ c :: after ∧ c.kind = .expiry ∧
              (before.foldl (fun x c => x.fold c.kind) old).view q = some .outgoing ∧
              (before.foldl (fun x c => x.fold c.kind) old).outgoing ≠ none
            (moved → (t.port q).events.forced = some (((s.port q).events.forced).getD 0 ||| BitVec.ofNat 16 (2 ^ i.val))) ∧
            (¬ moved → (t.port q).events.forced = (s.port q).events.forced)) ∧
          (∀ before c after q, l = before ++ c :: after → c.source = .command { port := q, condemned := false } →
            (∀ x ∈ after, (∀ w, x.source = .command w → w.port ≠ q) ∧ (x.source = .envelope → q ≠ .np)) →
            let x := before.foldl (fun x c => x.fold c.kind) old
            let y := x.fold c.kind
            let reply (w : List Word) : Prop := (t.port q).job = .ready { words := w, maker := .plain }
            (∀ a g e m, c.kind = .load a g e m → reply [0x0031, pair (slotByte i) 0, BitVec.ofNat 16 g]) ∧
            (c.kind = .unload → reply [0x0032, pair (slotByte i) 0, BitVec.ofNat 16 y.highest]) ∧
            (∀ g, c.kind = .activate g → reply [0x0024, pair (slotByte i) 0, BitVec.ofNat 16 (genNumber y.current),
              BitVec.ofNat 16 (genNumber y.outgoing), BitVec.ofNat 16 ((t.slot i).graceLeft.getD 0)]) ∧
            (∀ r g, c.kind = .adopt r g → reply [0x0025, pair (slotByte i) 0, BitVec.ofNat 16 (genNumber y.current),
              pair 1 (yesNo (x.outgoing.isSome && y.outgoing.isNone))])))) ∧
    (∀ (l : Lifecycle) (id : Ident) (c : LifeChange) (q : Port),
      s.inFlight = some { job := j, work := .record p k n (.life l (some id)) } →
      s.lifeChanges = [c] → c.taken = true → c.target = l → c.identity = some id → c.waiter = { port := q, condemned := false } →
      l ≠ .blank →
      ∃ t : Part, exec (.recordProgramDone true) s = .next (s.withPart t) ∧ t.lifecycle = l ∧ t.identity = some id ∧
        t.lifeChanges = [] ∧ t.slots = s.slots ∧
        (t.port q).job = .ready
          { words := if l = .sealed then [0x0033, pair 2 0] else [0x0030, pair 1 0] ++ toWords 4 id.toNat, maker := .plain })

/-- The other jobs that end well: a carried copy stands in the head and its key's entry points at it (R62); a wear stamp makes its page the
SPARE and ends the reclaim (R63); a sequence stamp lets the head take records (R61); an erased page counts its erase and leaves the fact
index (R63, R66); a programmed cell holds its slot, number and key, and its commit goes on (R49, R84); an erased cell is FREE (R52), but for
a BAD one, whose program failed after its commit had stopped and which stays BAD, the model's choice of log entry 40. After the last
carry-forward step of a RETIRING page the page is BAD without an erase and the reclaim moves on (R63). With the head's last position used, a
record of any kind and a new spare are followed by the head switch (R59, R61), which begins a reclaim when no RESERVE page is left (R62);
with no spare either and the oldest page still live the store is FAILED (R65), and so at a reclaim that ends with no free position as often
as the ring has pages; that a ring without a head counts as one with no free position is the model's choice of log entry 23. A TAMPER or
PAGEBAD record only enters the journal. An outcome with no job of its kind in flight changes nothing, which is the model's choice of log
entry 7. -/
def Obligations.VerifiedJobsUpdateTheTables : Prop :=
  ∀ (s : State) (j : Job), (s.headFree = true →
    (∀ p k r q m key, s.inFlight = some { job := j, work := .carry p k r } → j.id = .carry q m →
      s.head = some p → k.val + 1 < 31 → r.key? = some key →
      let u : Part :=
        { (s.storeAt p k (encodeRecord r)) with
          inFlight := none, pages := s.pages.set p { s.page p with used := k.val + 1 },
          facts := s.facts.filter (fun f => f.key != key) ++ [{ key := key, page := p, pos := k, seq := r.seq }] }
      let last : Prop := s.reclaim = some q ∧ (s.page q).role = .retiring ∧ ∀ x ∈ s.jobs, ∀ i, x.id ≠ .carry q i
      (¬ last → exec (.carryForwardDone true) s = .next (s.withPart u)) ∧
      (last → s.mode ≠ .failed → ∃ t : Part, exec (.carryForwardDone true) s = .next (s.withPart t) ∧ t.inFlight = none ∧
        t.store = u.store ∧ t.page p = u.page p ∧ (∀ f ∈ u.facts, f.page = p → f ∈ t.facts) ∧ u.pageRetired t q)) ∧
    (∀ p n, s.inFlight = some { job := j, work := .header p (some n) none } → (s.page p).role ≠ .head →
      ∀ b : Bool, exec (.headerProgramDone true b) s = .next (s.withPart
        { (s.storePage p (fun g => { g with wear := encodeStamp wearMarker n })) with
          inFlight := none, pages := s.pages.set p { s.page p with role := .spare, seq := none, used := 0, failed := 0 },
          reclaim := none, fullReclaims := 0 })) ∧
    (∀ p n, s.inFlight = some { job := j, work := .header p none (some n) } →
      ∀ b : Bool, exec (.headerProgramDone b true) s = .next (s.withPart
        { (s.storePage p (fun g => { g with stamp := encodeStamp seqMarker n })) with inFlight := none, headStamped := true })) ∧
    (∀ p m n, s.inFlight = some { job := j, work := .header p (some m) (some n) } →
      exec (.headerProgramDone true true) s = .next (s.withPart
        { (s.storePage p (fun g => { g with wear := encodeStamp wearMarker m, stamp := encodeStamp seqMarker n })) with
          inFlight := none, headStamped := true })) ∧
    (∀ p, s.inFlight = some { job := j, work := .pageErase p } →
      let t : Part :=
        { (s.storePage p (fun _ => .erased)) with
          inFlight := none,
          pages := s.pages.set p { s.page p with erases := (s.page p).erases + 1, seq := none, used := 0, failed := 0 },
          facts := s.facts.filter (fun f => f.page != p) }
      exec (.pageEraseDone true) s = .next (s.withPart { t with wear := t.wearLevel })) ∧
    (∀ c i g key n l, s.inFlight = some { job := j, work := .cellProgram c i g key } → j.commits = (n, 1) :: l →
      let t : Part := { (s.storeCell c (encodeCell { slot := slotByte i, gen := g, key := key })) with inFlight := none }
      (s.commit n = none → exec (.cellProgramDone true) s = .next (s.withPart t)) ∧
      (s.commit n ≠ none → exec (.cellProgramDone true) s = .next (s.withPart
        { t with commits := s.commits.map (fun m => if m.id = n then { m with verified := 1 } else m) }))) ∧
    (∀ c, s.inFlight = some { job := j, work := .cellErase c } →
      exec (.cellEraseDone true) s = .next (s.withPart
        { (s.storeCell c .erased) with
          inFlight := none, cells := s.cells.set c (if s.cell c = .bad then .bad else .free) })) ∧
    (s.inFlight = none → ∀ a b : Bool,
      exec (.recordProgramDone a) s = .next s ∧ exec (.carryForwardDone a) s = .next s ∧
      exec (.headerProgramDone a b) s = .next s ∧ exec (.pageEraseDone a) s = .next s ∧
      exec (.cellProgramDone a) s = .next s ∧ exec (.cellEraseDone a) s = .next s)) ∧
    (∀ p k n b, s.inFlight = some { job := j, work := .record p k n b } → s.head = some p →
      let u : Part :=
        { (s.storeAt p k (encodeRecord (b.record n))) with
          inFlight := none, pages := s.pages.set p { s.page p with used := k.val + 1 },
          facts := s.facts.filter (fun f => f.key != b.key) ++ [{ key := b.key, page := p, pos := k, seq := n }] }
      let plain : Prop := (∃ c, b = .tamper c) ∨ ∃ q, b = .pagebad q
      (plain → k.val + 1 < 31 → exec (.recordProgramDone true) s = .next (s.withPart u)) ∧
      (k.val = 30 → s.mode ≠ .failed → s.oneHead →
        (∀ sp, s.spare = some sp → ∃ t : Part, exec (.recordProgramDone true) s = .next (s.withPart t) ∧ u.headSwitched t sp) ∧
        (plain → s.phase = .running → u.noRoom = true → (∃ x ∈ s.jobs, x.id.isRecord = true) →
          ∃ t : Part, exec (.recordProgramDone true) s = .next (s.withPart t) ∧ t.mode = .failed ∧ t.modeFell))) ∧
    (∀ p n, s.headFree = false → s.mode ≠ .failed → s.inFlight = some { job := j, work := .header p (some n) none } →
      (s.page p).role ≠ .head →
      let u : Part :=
        { (s.storePage p (fun g => { g with wear := encodeStamp wearMarker n })) with
          inFlight := none, pages := s.pages.set p { s.page p with role := .spare, seq := none, used := 0, failed := 0 },
          reclaim := none, fullReclaims := s.fullReclaims + 1 }
      ∀ b : Bool, ∃ t : Part, exec (.headerProgramDone true b) s = .next (s.withPart t) ∧
        (u.ringSize ≤ u.fullReclaims → t.mode = .failed ∧ (s.phase = .running → t.modeFell)) ∧
        (u.fullReclaims < u.ringSize → s.oneHead → ∀ sp, u.spare = some sp → u.headSwitched t sp))

/-- The jobs that fail. A first failed position on the head is unusable and the record, or the copy, is programmed at the next one with the
next number, within the same job; at the last position the job goes back on the list in its old place and the head is switched (R59, R61).
At a second failed position the page is RETIRING, with its PAGEBAD job, and the job goes back too (R67). It goes back as a step of the
commits that still run. Where its slot has entered ZEROIZING meanwhile, or its tamper event waited for the record, the commits whose changes
the record carried stop, by the model's choice of log entry 21, and a SLOT job that stays on the list for the zeroize is no longer a step of
them (R83). A page whose stamp or erase fails
is BAD, out of the fact index, with its PAGEBAD job placed unless the store is FAILED; the stamp that failed, or both after a failed erase,
reads neither erased nor intact, so the next start-up finds the page owed an erase, or BAD where its PAGEBAD record lists it (R67, R93; both
stamps: log entry 13); a failed new head is followed by another head switch, a failed page of a reclaim by the next oldest page (R61, R63).
A cell whose program fails is BAD, also when its commit has stopped (R51); a commit that still runs goes on once with another cell; with
none to be had, or at the second failure, a LOAD_PLAIN is refused with NO_CELL and an envelope gets ENV_NO_CELL (R51). That the key returns
to the commit and the second program has the first's age and class is the model's choice of log entry 18; that the erase of a cell whose
commit has stopped stays on the list that of log entry 40, and which jobs no longer have a requester and do not go back that of log entry
34. A cell whose erase fails is
BAD and keeps its key (R52, R142). -/
def Obligations.FailedJobsAreHandled : Prop :=
  ∀ (s : State) (j : Job),
    (∀ p k w, s.inFlight = some { job := j, work := w } → (s.page p).failed = 0 → s.mode ≠ .failed → ∀ h : k.val + 1 < 31,
      let t (again : Work) : Host.Outcome State Fault Refusal := .next (s.withPart
        { (s.storeAt p k .broken) with
          inFlight := some { job := j, work := again }, nextSeq := s.nextSeq + 1,
          pages := s.pages.set p { s.page p with used := k.val + 1, failed := 1 } })
      (∀ n b, w = .record p k n b → exec (.recordProgramDone false) s = t (.record p ⟨k.val + 1, h⟩ s.nextSeq b)) ∧
      (∀ r, w = .carry p k r → exec (.carryForwardDone false) s = t (.carry p ⟨k.val + 1, h⟩ { r with seq := s.nextSeq }))) ∧
    (∀ p c, ((∃ m n b, s.inFlight = some { job := j, work := .header p m (some n) } ∧ c = .headerProgramDone b false) ∨
        (∃ m b, s.inFlight = some { job := j, work := .header p (some m) none } ∧ c = .headerProgramDone false b) ∨
        (s.inFlight = some { job := j, work := .pageErase p } ∧ c = .pageEraseDone false)) →
      ∃ t : Part, exec c s = .next (s.withPart t) ∧ t.inFlight = none ∧ (t.page p).role = .bad ∧ (∀ f ∈ t.facts, f.page ≠ p) ∧
        (t.mode ≠ .failed → t.onList (.pagebad p) = true) ∧
        (let g := t.store.pages[p]
         let owes : Prop := g.stamp = .broken ∧ g.role false = .closed ∧ g.role true = .bad
         (∀ m q b, s.inFlight = some { job := j, work := .header p (some m) q } → c = .headerProgramDone false b →
           g.wear = .broken ∧ g.role false = .closed) ∧
         (∀ m q b, s.inFlight = some { job := j, work := .header p m (some q) } → c = .headerProgramDone b false →
           m = none ∨ b = true → owes) ∧
         (s.inFlight = some { job := j, work := .pageErase p } → g.wear = .broken ∧ owes)) ∧
        ((∃ m n, s.inFlight = some { job := j, work := .header p m (some n) }) → s.head = some p → s.oneHead → s.mode ≠ .failed →
          6 ≤ s.usable → ∀ sp, s.spare = some sp → (s.pageGone p).headSwitched t sp) ∧
        ((∀ m n, s.inFlight ≠ some { job := j, work := .header p m (some n) }) → s.headFree = true → s.head ≠ some p →
          t.mode ≠ .failed → ∀ o, (s.pageGone p).oldest = some o → (s.page o).role = .closed →
          t.reclaimPlaced o (t.pageLive o = true))) ∧
    (∀ p k w c sp, s.inFlight = some { job := j, work := w } →
      ((∃ n b, w = .record p k n b ∧ c = .recordProgramDone false) ∨ (∃ r, w = .carry p k r ∧ c = .carryForwardDone false)) →
      s.head = some p → s.oneHead → s.spare = some sp → s.mode ≠ .failed → s.pfw = false →
      let asked : Prop := j.id = .tamper ∨ (∃ q, j.id = .pagebad q) ∨ (j.id = .life ∧ s.lifeChanges ≠ []) ∨
        (∃ i g, j.id = .ceil i g ∧ j.commits = [] ∧ s.window i g ≠ none) ∨
        (∃ i, j.id = .slot i ∧ (s.slot i).awaiting ≠ [] ∧ (s.slot i).zeroizing = false ∧ (s.slot i).armed = false) ∨
        (∃ i, j.id = .slot i ∧ ∃ y ∈ (s.slot i).awaiting, y.kind = .zeroize) ∨
        (∃ q m, j.id = .carry q m ∧ s.reclaim = some q)
      let u (r : PageRole) : Part :=
        { (s.storeAt p k .broken) with pages := s.pages.set p { s.page p with used := k.val + 1, failed := 1, role := r } }
      let back (t : Part) : Prop := exec c s = .next (s.withPart t) ∧ t.inFlight = none ∧
        (asked → ∃ x ∈ t.jobs, x.id = j.id ∧ x.age ≤ j.age ∧ x.cls ≤ j.cls ∧ ∀ y ∈ j.commits, t.commit y.1 ≠ none → y ∈ x.commits) ∧
        (∀ i y n, j.id = .slot i → ((s.slot i).zeroizing = true ∨ (s.slot i).armed = true) → y ∈ (s.slot i).awaiting →
          y.taken = true → y.kind.commit? = some n → s.commit n ≠ none → t.commitGone n)
      ((s.page p).failed = 0 → k.val = 30 → ∃ t : Part, back t ∧ (u .head).headSwitched t sp) ∧
      ((s.page p).failed ≠ 0 → 6 ≤ s.usable → s.reserve ≠ none → ∃ t : Part, back t ∧
        (t.page p).role = .retiring ∧ t.onList (.pagebad p) = true ∧ (u .retiring).headSwitched t sp)) ∧
    (∀ c i g key n l m, s.headFree = true → s.inFlight = some { job := j, work := .cellProgram c i g key } →
      j.commits = (n, 1) :: l → s.commit n = some m → s.pfw = false →
      (∀ d, m.retried = false → (s.setCell c .bad).freeCell = some d →
        ∃ t : Part, exec (.cellProgramDone false) s = .next (s.withPart t) ∧ t.inFlight = none ∧
          t.cell c = .bad ∧ t.cell d = .used m.slot m.gen ∧
          t.commit n = some { m with cell := some d, key := some key, retried := true } ∧
          t.jobs = insertByAge { j with id := .cellProgram d } s.jobs) ∧
      (∀ q a h e, (m.retried = true ∨ (s.setCell c .bad).freeCell = none) → m.kind = .load →
        (s.slot m.slot).awaiting =
          [{ kind := .load a h e n, ready := false, taken := false, source := .command { port := q, condemned := false } }] →
        ∃ t : Part, exec (.cellProgramDone false) s = .next (s.withPart t) ∧ t.inFlight = none ∧ t.cell c = .bad ∧
          t.commit n = none ∧ (t.port q).job = .ready { words := [0x1D31], maker := .plain }) ∧
      (∀ im h r e, (m.retried = true ∨ (s.setCell c .bad).freeCell = none) → s.receiver.condemned = false →
        (s.slot m.slot).awaiting =
          [{ kind := .renew im h r e n, ready := false, taken := false, source := .envelope }] →
        ∃ t : Part, exec (.cellProgramDone false) s = .next (s.withPart t) ∧ t.inFlight = none ∧ t.cell c = .bad ∧
          t.commit n = none ∧ t.receiver = { s.receiver with state := .verdict, verdict := some .envNoCell, cell := none } ∧
          ∃ items, (t.port .np).job = .ready { words := 0x2C22 :: items, maker := .verdict })) ∧
    (∀ c i g key n l, s.headFree = true → s.inFlight = some { job := j, work := .cellProgram c i g key } → j.commits = (n, 1) :: l →
      s.commit n = none → ∃ (st : Store) (d : Nat), exec (.cellProgramDone false) s = .next (s.withPart
        { s.toPart with inFlight := none, cells := s.cells.set c .bad, store := st, draws := d }) ∧
        st.pages = s.store.pages ∧ ∀ e : Fin 48, e ≠ c → st.cells[e] = s.store.cells[e]) ∧
    (∀ c, s.inFlight = some { job := j, work := .cellErase c } →
      exec (.cellEraseDone false) s = .next (s.withPart { s.toPart with inFlight := none, cells := s.cells.set c .bad }))

/-- The seven stages of the stride (R33 to R35). Demand is S_cur while the rate is not known, else the values used, scaled to 120 seconds
and rounded up. It is raised to the smallest power of two that is at least 1 and at least it, held within a factor of four of S_cur, and
then raised to S_min (R34). Wear doubles it once per level, 65,536 caps it and stands for it in DEGRADED, and the new ceiling is P
and the stride, at most 4,294,967,295. Every stride is a power of two from 16 to 65,536. -/
def Obligations.StrideStages : Prop :=
  (∀ c delta sCur : Nat,
    demand false c delta sCur = sCur ∧ demand true 0 delta sCur = 0 ∧
    c * 120 ≤ demand true c delta sCur * max delta 1 ∧
    ∀ q, c * 120 ≤ q * max delta 1 → demand true c delta sCur ≤ q) ∧
  (∀ q sCur smin : Nat, q ≤ 2 ^ 64 →
    ∃ k, max q 1 ≤ 2 ^ k ∧ (∀ m, max q 1 ≤ 2 ^ m → k ≤ m) ∧
      limited q sCur smin = max (min (max (2 ^ k) (sCur / 4)) (4 * sCur)) smin) ∧
  (∀ r w : Nat, capped r w .normal = min (r * 2 ^ w) 65536 ∧ capped r w .degraded = 65536) ∧
  (∀ p d : Nat, newCeiling p d = min (p + d) 4294967295) ∧
  (∀ (w : Window) (now : Count) (smin wear : Nat) (mode : StoreMode) (a b : Nat),
    w.stride now smin wear mode =
      capped (limited (demand w.rateKnown (w.t - w.grantCounter) (now - w.grantTime).toNat w.sCur) w.sCur smin) wear mode ∧
    (4 ≤ a → a ≤ 16 → w.sCur = 2 ^ a → 4 ≤ b → b ≤ 12 → smin = 2 ^ b →
      ∃ k, 4 ≤ k ∧ k ≤ 16 ∧ w.stride now smin wear mode = 2 ^ k))

/-! ### What the store holds reads back (R188) -/

/-- What is written to the store reads back as what was written: a stamp, a record whose kind is one of the five, a cell, and the payload
of each kind of record, where a SLOT record's generations come back without their cells (R6, R188). An item reads erased
when every byte reads FFh; another stamp is intact by its check word alone (R93, R184), a record by its check word and one of the five kinds
(R188), a cell by its marker and its check word, whatever slot it names (R98, R188), and is broken otherwise. -/
def Obligations.StoredItemsReadBack : Prop :=
  (∀ (m : Byte) (n : Nat), n < 2 ^ 32 →
    readStamp (encodeStamp m n) = .intact n) ∧
  (∀ b : List Byte, b.length = 16 → (∃ x ∈ b, x ≠ 0xFF) → readStamp (.bytes b) =
    (if b.drop 14 = wordPair (crc 0 (b.take 14)) then .intact (ofBytes ((b.drop 1).take 4)) else .broken)) ∧
  (∀ b : List Byte, b.length = 32 → (∃ x ∈ b, x ≠ 0xFF) → readRecord (.bytes b) =
    (if b.drop 30 = wordPair (crc 0 (b.take 30)) ∧ 1 ≤ (b.getD 4 0).toNat ∧ (b.getD 4 0).toNat ≤ 5 then
      .intact { seq := ofBytes (b.take 4), kind := b.getD 4 0, slot := b.getD 5 0, payload := (b.drop 6).take 24 }
     else .broken)) ∧
  (∀ b : List Byte, (∀ x ∈ b, x = 0xFF) →
    readStamp (.bytes b) = .erased ∧ readRecord (.bytes b) = .erased ∧ readCell (.bytes b) = .erased) ∧
  (∀ b : List Byte, b.length = 64 → (∃ x ∈ b, x ≠ 0xFF) → readCell (.bytes b) =
    (if b.take 2 = [0x5A, 0xC3] ∧ b.drop 62 = wordPair (crc 0 (b.take 62)) then
      .intact { slot := b.getD 2 0, gen := ofBytes ((b.drop 4).take 2), key := BitVec.ofNat 128 (ofBytes ((b.drop 6).take 16)) }
     else .broken)) ∧
  (∀ r : Record, r.seq < 2 ^ 32 → 1 ≤ r.kind.toNat → r.kind.toNat ≤ 5 → r.payload.length = 24 →
    readRecord (encodeRecord r) = .intact r) ∧
  (∀ c : KeyCell, c.gen < 65536 → readCell (encodeCell c) = .intact c) ∧
  (∀ n : Nat,
    (∀ (i : Fin 16) (g c k : Nat), g < 65536 → c < 2 ^ 32 → k < 256 →
      ((Body.ceil i g c (2 ^ k)).record n).body? = some (.ceil i g c (2 ^ k))) ∧
    (∀ l id, (l = .blank ↔ id = none) → ((Body.life l id).record n).body? = some (.life l id)) ∧
    (∀ c, c < 2 ^ 32 → ((Body.tamper c).record n).body? = some (.tamper c)) ∧
    (∀ p, ((Body.pagebad p).record n).body? = some (.pagebad p)) ∧
    (∀ (i : Fin 16) (h : Nat), h < 65536 →
      ((Body.slot i { Pers.blank with highest := h }).record n).body? = some (.slot i { Pers.blank with highest := h })) ∧
    (∀ (i : Fin 16) (x : Pers) (a : Attrs) (k : Nat), x.attrs = some a → k < 256 → a.smin = 2 ^ k → a.label.length ≤ 6 →
      a.grace < 65536 → x.highest < 65536 → (∀ g ∈ x.gens, 1 ≤ g.num ∧ g.num < 65536) →
      ((Body.slot i x).record n).body? = some (.slot i
        { x with pending := x.pending.map Gen.bare, current := x.current.map Gen.bare, outgoing := x.outgoing.map Gen.bare })))

/-! ### What every command keeps -/

/-- No command writes the store but the outcome of the job in flight, and a reset that tears it (R74, R79, R89); and those write only the
page or the cell the job names. -/
def Obligations.OnlyOutcomesWriteTheStore : Prop :=
  ∀ (c : Instr) (s t : State), exec c s = .next t →
    (c.isOutcome = false → (∀ b, c ≠ .powerOnReset b) → c ≠ .pinReset false → t.store = s.store) ∧
    (s.inFlight = none → t.store = s.store) ∧
    (∀ f, s.inFlight = some f →
      (∀ q : Fin 8, f.work.page? ≠ some q → t.store.pages[q] = s.store.pages[q]) ∧
      (∀ e : Fin 48, f.work.cell? ≠ some e → t.store.cells[e] = s.store.cells[e]))

/-- The store mode falls and does not rise again until a reset (R70). Whatever command makes it fall while the part runs, STORE with the new
mode is set on both ports; a fall to FAILED leaves no reclaim and no step of the ring on the list, and of the record jobs at most the SLOT
job of a grace expiry that stays awaiting (R17, R38, R60, R70). -/
def Obligations.StoreModeOnlyFalls : Prop :=
  ∀ (c : Instr) (s t : State), c.isReset = false → exec c s = .next t → s.mode.rank ≤ t.mode.rank ∧
    (s.phase = .running → t.mode ≠ s.mode → t.modeFell)

/-- Between resets, a slot's applied state is only ever the payload of a SLOT record that has just verified (R14, R16), the lifecycle and
the identity those of a LIFE record (R161, R162); the tamper count rises only at a tamper event (R169). -/
def Obligations.AppliedStateMovesOnlyWithRecords : Prop :=
  ∀ (c : Instr) (s t : State), c.isReset = false → exec c s = .next t →
    (∀ i : Fin 16, (t.slot i).applied ≠ (s.slot i).applied →
      c = .recordProgramDone true ∧ ∃ j p k n, s.inFlight = some { job := j, work := .record p k n (.slot i (t.slot i).applied) }) ∧
    (t.lifecycle ≠ s.lifecycle ∨ t.identity ≠ s.identity →
      c = .recordProgramDone true ∧ ∃ j p k n, s.inFlight = some { job := j, work := .record p k n (.life t.lifecycle t.identity) }) ∧
    (t.tamperCount ≠ s.tamperCount →
      ((∃ now, c = .tamperEvent now) ∨ c = .startUpTamperSample true) ∧ t.tamperCount = min (s.tamperCount + 1) 4294967295)

/-- Every step keeps the windows bounded (R28): each generation has one window, T does not pass P unless nothing has been issued, P does not
pass 4,294,967,295, and a reservation in flight never carries a ceiling below its window's P. P moves only with a CEIL
record: a step leaves it, or sets it to the ceiling of the reservation's record that has just verified and stands in the store (R37), or opens
the window at 1 + S_min (R26), or, at START_UP, takes it from the generation's latest intact CEIL record, 4,294,967,295 with none (R47). Every
step keeps the ring with at most one head (R54, R61). -/
def Obligations.WindowsStayBounded : Prop :=
  ∀ s t : State, step s = .next t →
    (s.windowsBounded → t.windowsBounded) ∧ (s.oneHead → t.oneHead) ∧
    ∀ (i : Fin 16) (g : Nat) (w : Window), t.window i g = some w →
      (∃ v, s.window i g = some v ∧ w.p = v.p) ∨
      (∃ j p k n d, s.inFlight = some { job := j, work := .record p k n (.ceil i g w.p d) } ∧ j.commits = [] ∧
        t.store.pages[p].records[k] = encodeRecord ((Body.ceil i g w.p d).record n)) ∨
      (s.window i g = none ∧ w.t = 1 ∧ ∃ j p k n x a, s.inFlight = some { job := j, work := .record p k n (.slot i x) } ∧
        x.attrs = some a ∧ w.p = min (1 + a.smin) 4294967295 ∧ t.store.pages[p].records[k] = encodeRecord ((Body.slot i x).record n)) ∨
      (s.phase = .held ∧ t.phase = .replayed ∧
        (w.p = 4294967295 ∧ unrecorded t.store.found (.ceil i g) ∨
          ∃ f ∈ t.store.found, (∃ d, f.record.body? = some (.ceil i g w.p d)) ∧
            ∀ h ∈ t.store.found, h.record.key? = some (.ceil i g) → h.record.seq ≤ f.record.seq))

end
end

