-- ==== Sys2Proof/Laws/Bits.lean ====
section
/-! SUPPORT. Bytes in words and words in bytes (Conventions, R184, R185): taking apart what was put together. -/

namespace Sys2Proof.Machine

@[simp] theorem hiByte_pair (a b : Byte) : hiByte (pair a b) = a := by
  ext i hi
  simp only [hiByte, pair, BitVec.getElem_extractLsb', BitVec.getLsbD_append]
  rw [if_neg (by omega)]
  simp [hi]

@[simp] theorem loByte_pair (a b : Byte) : loByte (pair a b) = b := by
  ext i hi
  simp only [loByte, pair, BitVec.getElem_extractLsb', BitVec.getLsbD_append]
  rw [if_pos (by omega)]
  simp [hi]

@[simp] theorem pair_hiByte_loByte (w : Word) : pair (hiByte w) (loByte w) = w := by
  ext i hi
  simp only [pair, hiByte, loByte, ← BitVec.getLsbD_eq_getElem, BitVec.getLsbD_append, BitVec.getLsbD_extractLsb']
  by_cases h : i < 8
  · simp [h]
  · rw [if_neg h]
    have : i - 8 < 8 := by omega
    simp [this, show 8 + (i - 8) = i by omega]

theorem wordBytes_length (w : List Word) : (wordBytes w).length = 2 * w.length := by
  induction w with
  | nil => rfl
  | cons a l ih => simp only [wordBytes, List.length_cons, ih]; omega

theorem packBytes_length : ∀ b : List Byte, (packBytes b).length = (b.length + 1) / 2
  | [] => rfl
  | [_] => by simp [packBytes]
  | _ :: _ :: rest => by simp only [packBytes, List.length_cons, packBytes_length rest]; omega

/-- Bytes carried two to a word are read back (Conventions). -/
theorem wordBytes_packBytes : ∀ b : List Byte, (wordBytes (packBytes b)).take b.length = b
  | [] => rfl
  | [a] => by simp [packBytes, wordBytes]
  | a :: b :: rest => by simp [packBytes, wordBytes, wordBytes_packBytes rest]

/-- The command code table is one to one (R185). -/
@[simp] theorem cmdOfCode_code (c : Cmd) : cmdOfCode c.code = some c := by cases c <;> rfl

theorem code_of_cmdOfCode {b : Byte} {c : Cmd} (h : cmdOfCode b = some c) : c.code = b := by
  have := List.find?_some h
  simpa using this

/-- One CRC step takes only 0 to 0, so a check word with a non-zero initial value over zero bytes is not 0 (R173, R184). -/
theorem crcShift_ne_zero {c : Word} (h : c ≠ 0) : crcShift c ≠ 0 := by
  intro hz
  apply h
  unfold crcShift at hz
  split at hz
  · exfalso
    have := congrArg (fun x => BitVec.getLsbD x 0) hz
    simp at this
  · rename_i hm
    have hm' : c.msb = false := by simpa using hm
    rw [BitVec.msb_eq_decide] at hm'
    have := congrArg BitVec.toNat hz
    apply BitVec.eq_of_toNat_eq
    simp [BitVec.toNat_shiftLeft, Nat.shiftLeft_eq] at this hm' ⊢
    omega

end Sys2Proof.Machine
end

