-- ==== Sys2Proof/Laws/State.lean ====
section
/-! SUPPORT. The named updates of the part's state, field by field: what each leaves unchanged, and reading after writing. -/

namespace Sys2Proof.Machine

/-! ### `Part.setPort` -/

@[simp] theorem Part.setPort_phase (s : Part) (p : Port) (x : PortState) : (s.setPort p x).phase = s.phase := by cases p <;> rfl
@[simp] theorem Part.setPort_powerCause (s : Part) (p : Port) (x : PortState) : (s.setPort p x).powerCause = s.powerCause := by cases p <;> rfl
@[simp] theorem Part.setPort_supply (s : Part) (p : Port) (x : PortState) : (s.setPort p x).supply = s.supply := by cases p <;> rfl
@[simp] theorem Part.setPort_rstn (s : Part) (p : Port) (x : PortState) : (s.setPort p x).rstn = s.rstn := by cases p <;> rfl
@[simp] theorem Part.setPort_pfw (s : Part) (p : Port) (x : PortState) : (s.setPort p x).pfw = s.pfw := by cases p <;> rfl
@[simp] theorem Part.setPort_tamp (s : Part) (p : Port) (x : PortState) : (s.setPort p x).tamp = s.tamp := by cases p <;> rfl
@[simp] theorem Part.setPort_ms (s : Part) (p : Port) (x : PortState) : (s.setPort p x).ms = s.ms := by cases p <;> rfl
@[simp] theorem Part.setPort_sec (s : Part) (p : Port) (x : PortState) : (s.setPort p x).sec = s.sec := by cases p <;> rfl
@[simp] theorem Part.setPort_mpAside (s : Part) (p : Port) (x : PortState) : (s.setPort p x).mpAside = s.mpAside := by cases p <;> rfl
@[simp] theorem Part.setPort_npAside (s : Part) (p : Port) (x : PortState) : (s.setPort p x).npAside = s.npAside := by cases p <;> rfl
@[simp] theorem Part.setPort_slots (s : Part) (p : Port) (x : PortState) : (s.setPort p x).slots = s.slots := by cases p <;> rfl
@[simp] theorem Part.setPort_windows (s : Part) (p : Port) (x : PortState) : (s.setPort p x).windows = s.windows := by cases p <;> rfl
@[simp] theorem Part.setPort_pages (s : Part) (p : Port) (x : PortState) : (s.setPort p x).pages = s.pages := by cases p <;> rfl
@[simp] theorem Part.setPort_cells (s : Part) (p : Port) (x : PortState) : (s.setPort p x).cells = s.cells := by cases p <;> rfl
@[simp] theorem Part.setPort_allocNext (s : Part) (p : Port) (x : PortState) : (s.setPort p x).allocNext = s.allocNext := by cases p <;> rfl
@[simp] theorem Part.setPort_facts (s : Part) (p : Port) (x : PortState) : (s.setPort p x).facts = s.facts := by cases p <;> rfl
@[simp] theorem Part.setPort_nextSeq (s : Part) (p : Port) (x : PortState) : (s.setPort p x).nextSeq = s.nextSeq := by cases p <;> rfl
@[simp] theorem Part.setPort_nextPageSeq (s : Part) (p : Port) (x : PortState) : (s.setPort p x).nextPageSeq = s.nextPageSeq := by cases p <;> rfl
@[simp] theorem Part.setPort_headStamped (s : Part) (p : Port) (x : PortState) : (s.setPort p x).headStamped = s.headStamped := by cases p <;> rfl
@[simp] theorem Part.setPort_reclaim (s : Part) (p : Port) (x : PortState) : (s.setPort p x).reclaim = s.reclaim := by cases p <;> rfl
@[simp] theorem Part.setPort_fullReclaims (s : Part) (p : Port) (x : PortState) : (s.setPort p x).fullReclaims = s.fullReclaims := by cases p <;> rfl
@[simp] theorem Part.setPort_mode (s : Part) (p : Port) (x : PortState) : (s.setPort p x).mode = s.mode := by cases p <;> rfl
@[simp] theorem Part.setPort_wear (s : Part) (p : Port) (x : PortState) : (s.setPort p x).wear = s.wear := by cases p <;> rfl
@[simp] theorem Part.setPort_jobs (s : Part) (p : Port) (x : PortState) : (s.setPort p x).jobs = s.jobs := by cases p <;> rfl
@[simp] theorem Part.setPort_nextAge (s : Part) (p : Port) (x : PortState) : (s.setPort p x).nextAge = s.nextAge := by cases p <;> rfl
@[simp] theorem Part.setPort_inFlight (s : Part) (p : Port) (x : PortState) : (s.setPort p x).inFlight = s.inFlight := by cases p <;> rfl
@[simp] theorem Part.setPort_commits (s : Part) (p : Port) (x : PortState) : (s.setPort p x).commits = s.commits := by cases p <;> rfl
@[simp] theorem Part.setPort_receiver (s : Part) (p : Port) (x : PortState) : (s.setPort p x).receiver = s.receiver := by cases p <;> rfl
@[simp] theorem Part.setPort_te (s : Part) (p : Port) (x : PortState) : (s.setPort p x).te = s.te := by cases p <;> rfl
@[simp] theorem Part.setPort_lifecycle (s : Part) (p : Port) (x : PortState) : (s.setPort p x).lifecycle = s.lifecycle := by cases p <;> rfl
@[simp] theorem Part.setPort_identity (s : Part) (p : Port) (x : PortState) : (s.setPort p x).identity = s.identity := by cases p <;> rfl
@[simp] theorem Part.setPort_lifeChanges (s : Part) (p : Port) (x : PortState) : (s.setPort p x).lifeChanges = s.lifeChanges := by cases p <;> rfl
@[simp] theorem Part.setPort_tamperCount (s : Part) (p : Port) (x : PortState) : (s.setPort p x).tamperCount = s.tamperCount := by cases p <;> rfl
@[simp] theorem Part.setPort_sealWindow (s : Part) (p : Port) (x : PortState) : (s.setPort p x).sealWindow = s.sealWindow := by cases p <;> rfl
@[simp] theorem Part.setPort_cover (s : Part) (p : Port) (x : PortState) : (s.setPort p x).cover = s.cover := by cases p <;> rfl
@[simp] theorem Part.setPort_debounce (s : Part) (p : Port) (x : PortState) : (s.setPort p x).debounce = s.debounce := by cases p <;> rfl
@[simp] theorem Part.setPort_store (s : Part) (p : Port) (x : PortState) : (s.setPort p x).store = s.store := by cases p <;> rfl
@[simp] theorem Part.setPort_draws (s : Part) (p : Port) (x : PortState) : (s.setPort p x).draws = s.draws := by cases p <;> rfl

/-! ### `Part.setSlot` -/

@[simp] theorem Part.setSlot_phase (s : Part) (i : Fin 16) (x : Slot) : (s.setSlot i x).phase = s.phase := rfl
@[simp] theorem Part.setSlot_powerCause (s : Part) (i : Fin 16) (x : Slot) : (s.setSlot i x).powerCause = s.powerCause := rfl
@[simp] theorem Part.setSlot_supply (s : Part) (i : Fin 16) (x : Slot) : (s.setSlot i x).supply = s.supply := rfl
@[simp] theorem Part.setSlot_rstn (s : Part) (i : Fin 16) (x : Slot) : (s.setSlot i x).rstn = s.rstn := rfl
@[simp] theorem Part.setSlot_pfw (s : Part) (i : Fin 16) (x : Slot) : (s.setSlot i x).pfw = s.pfw := rfl
@[simp] theorem Part.setSlot_tamp (s : Part) (i : Fin 16) (x : Slot) : (s.setSlot i x).tamp = s.tamp := rfl
@[simp] theorem Part.setSlot_ms (s : Part) (i : Fin 16) (x : Slot) : (s.setSlot i x).ms = s.ms := rfl
@[simp] theorem Part.setSlot_sec (s : Part) (i : Fin 16) (x : Slot) : (s.setSlot i x).sec = s.sec := rfl
@[simp] theorem Part.setSlot_mp (s : Part) (i : Fin 16) (x : Slot) : (s.setSlot i x).mp = s.mp := rfl
@[simp] theorem Part.setSlot_np (s : Part) (i : Fin 16) (x : Slot) : (s.setSlot i x).np = s.np := rfl
@[simp] theorem Part.setSlot_mpAside (s : Part) (i : Fin 16) (x : Slot) : (s.setSlot i x).mpAside = s.mpAside := rfl
@[simp] theorem Part.setSlot_npAside (s : Part) (i : Fin 16) (x : Slot) : (s.setSlot i x).npAside = s.npAside := rfl
@[simp] theorem Part.setSlot_windows (s : Part) (i : Fin 16) (x : Slot) : (s.setSlot i x).windows = s.windows := rfl
@[simp] theorem Part.setSlot_pages (s : Part) (i : Fin 16) (x : Slot) : (s.setSlot i x).pages = s.pages := rfl
@[simp] theorem Part.setSlot_cells (s : Part) (i : Fin 16) (x : Slot) : (s.setSlot i x).cells = s.cells := rfl
@[simp] theorem Part.setSlot_allocNext (s : Part) (i : Fin 16) (x : Slot) : (s.setSlot i x).allocNext = s.allocNext := rfl
@[simp] theorem Part.setSlot_facts (s : Part) (i : Fin 16) (x : Slot) : (s.setSlot i x).facts = s.facts := rfl
@[simp] theorem Part.setSlot_nextSeq (s : Part) (i : Fin 16) (x : Slot) : (s.setSlot i x).nextSeq = s.nextSeq := rfl
@[simp] theorem Part.setSlot_nextPageSeq (s : Part) (i : Fin 16) (x : Slot) : (s.setSlot i x).nextPageSeq = s.nextPageSeq := rfl
@[simp] theorem Part.setSlot_headStamped (s : Part) (i : Fin 16) (x : Slot) : (s.setSlot i x).headStamped = s.headStamped := rfl
@[simp] theorem Part.setSlot_reclaim (s : Part) (i : Fin 16) (x : Slot) : (s.setSlot i x).reclaim = s.reclaim := rfl
@[simp] theorem Part.setSlot_fullReclaims (s : Part) (i : Fin 16) (x : Slot) : (s.setSlot i x).fullReclaims = s.fullReclaims := rfl
@[simp] theorem Part.setSlot_mode (s : Part) (i : Fin 16) (x : Slot) : (s.setSlot i x).mode = s.mode := rfl
@[simp] theorem Part.setSlot_wear (s : Part) (i : Fin 16) (x : Slot) : (s.setSlot i x).wear = s.wear := rfl
@[simp] theorem Part.setSlot_jobs (s : Part) (i : Fin 16) (x : Slot) : (s.setSlot i x).jobs = s.jobs := rfl
@[simp] theorem Part.setSlot_nextAge (s : Part) (i : Fin 16) (x : Slot) : (s.setSlot i x).nextAge = s.nextAge := rfl
@[simp] theorem Part.setSlot_inFlight (s : Part) (i : Fin 16) (x : Slot) : (s.setSlot i x).inFlight = s.inFlight := rfl
@[simp] theorem Part.setSlot_commits (s : Part) (i : Fin 16) (x : Slot) : (s.setSlot i x).commits = s.commits := rfl
@[simp] theorem Part.setSlot_receiver (s : Part) (i : Fin 16) (x : Slot) : (s.setSlot i x).receiver = s.receiver := rfl
@[simp] theorem Part.setSlot_te (s : Part) (i : Fin 16) (x : Slot) : (s.setSlot i x).te = s.te := rfl
@[simp] theorem Part.setSlot_lifecycle (s : Part) (i : Fin 16) (x : Slot) : (s.setSlot i x).lifecycle = s.lifecycle := rfl
@[simp] theorem Part.setSlot_identity (s : Part) (i : Fin 16) (x : Slot) : (s.setSlot i x).identity = s.identity := rfl
@[simp] theorem Part.setSlot_lifeChanges (s : Part) (i : Fin 16) (x : Slot) : (s.setSlot i x).lifeChanges = s.lifeChanges := rfl
@[simp] theorem Part.setSlot_tamperCount (s : Part) (i : Fin 16) (x : Slot) : (s.setSlot i x).tamperCount = s.tamperCount := rfl
@[simp] theorem Part.setSlot_sealWindow (s : Part) (i : Fin 16) (x : Slot) : (s.setSlot i x).sealWindow = s.sealWindow := rfl
@[simp] theorem Part.setSlot_cover (s : Part) (i : Fin 16) (x : Slot) : (s.setSlot i x).cover = s.cover := rfl
@[simp] theorem Part.setSlot_debounce (s : Part) (i : Fin 16) (x : Slot) : (s.setSlot i x).debounce = s.debounce := rfl
@[simp] theorem Part.setSlot_store (s : Part) (i : Fin 16) (x : Slot) : (s.setSlot i x).store = s.store := rfl
@[simp] theorem Part.setSlot_draws (s : Part) (i : Fin 16) (x : Slot) : (s.setSlot i x).draws = s.draws := rfl

/-! ### `Part.modPage` -/

@[simp] theorem Part.modPage_phase (s : Part) (p : Fin 8) (f : Page → Page) : (s.modPage p f).phase = s.phase := rfl
@[simp] theorem Part.modPage_powerCause (s : Part) (p : Fin 8) (f : Page → Page) : (s.modPage p f).powerCause = s.powerCause := rfl
@[simp] theorem Part.modPage_supply (s : Part) (p : Fin 8) (f : Page → Page) : (s.modPage p f).supply = s.supply := rfl
@[simp] theorem Part.modPage_rstn (s : Part) (p : Fin 8) (f : Page → Page) : (s.modPage p f).rstn = s.rstn := rfl
@[simp] theorem Part.modPage_pfw (s : Part) (p : Fin 8) (f : Page → Page) : (s.modPage p f).pfw = s.pfw := rfl
@[simp] theorem Part.modPage_tamp (s : Part) (p : Fin 8) (f : Page → Page) : (s.modPage p f).tamp = s.tamp := rfl
@[simp] theorem Part.modPage_ms (s : Part) (p : Fin 8) (f : Page → Page) : (s.modPage p f).ms = s.ms := rfl
@[simp] theorem Part.modPage_sec (s : Part) (p : Fin 8) (f : Page → Page) : (s.modPage p f).sec = s.sec := rfl
@[simp] theorem Part.modPage_mp (s : Part) (p : Fin 8) (f : Page → Page) : (s.modPage p f).mp = s.mp := rfl
@[simp] theorem Part.modPage_np (s : Part) (p : Fin 8) (f : Page → Page) : (s.modPage p f).np = s.np := rfl
@[simp] theorem Part.modPage_mpAside (s : Part) (p : Fin 8) (f : Page → Page) : (s.modPage p f).mpAside = s.mpAside := rfl
@[simp] theorem Part.modPage_npAside (s : Part) (p : Fin 8) (f : Page → Page) : (s.modPage p f).npAside = s.npAside := rfl
@[simp] theorem Part.modPage_slots (s : Part) (p : Fin 8) (f : Page → Page) : (s.modPage p f).slots = s.slots := rfl
@[simp] theorem Part.modPage_windows (s : Part) (p : Fin 8) (f : Page → Page) : (s.modPage p f).windows = s.windows := rfl
@[simp] theorem Part.modPage_cells (s : Part) (p : Fin 8) (f : Page → Page) : (s.modPage p f).cells = s.cells := rfl
@[simp] theorem Part.modPage_allocNext (s : Part) (p : Fin 8) (f : Page → Page) : (s.modPage p f).allocNext = s.allocNext := rfl
@[simp] theorem Part.modPage_facts (s : Part) (p : Fin 8) (f : Page → Page) : (s.modPage p f).facts = s.facts := rfl
@[simp] theorem Part.modPage_nextSeq (s : Part) (p : Fin 8) (f : Page → Page) : (s.modPage p f).nextSeq = s.nextSeq := rfl
@[simp] theorem Part.modPage_nextPageSeq (s : Part) (p : Fin 8) (f : Page → Page) : (s.modPage p f).nextPageSeq = s.nextPageSeq := rfl
@[simp] theorem Part.modPage_headStamped (s : Part) (p : Fin 8) (f : Page → Page) : (s.modPage p f).headStamped = s.headStamped := rfl
@[simp] theorem Part.modPage_reclaim (s : Part) (p : Fin 8) (f : Page → Page) : (s.modPage p f).reclaim = s.reclaim := rfl
@[simp] theorem Part.modPage_fullReclaims (s : Part) (p : Fin 8) (f : Page → Page) : (s.modPage p f).fullReclaims = s.fullReclaims := rfl
@[simp] theorem Part.modPage_mode (s : Part) (p : Fin 8) (f : Page → Page) : (s.modPage p f).mode = s.mode := rfl
@[simp] theorem Part.modPage_wear (s : Part) (p : Fin 8) (f : Page → Page) : (s.modPage p f).wear = s.wear := rfl
@[simp] theorem Part.modPage_jobs (s : Part) (p : Fin 8) (f : Page → Page) : (s.modPage p f).jobs = s.jobs := rfl
@[simp] theorem Part.modPage_nextAge (s : Part) (p : Fin 8) (f : Page → Page) : (s.modPage p f).nextAge = s.nextAge := rfl
@[simp] theorem Part.modPage_inFlight (s : Part) (p : Fin 8) (f : Page → Page) : (s.modPage p f).inFlight = s.inFlight := rfl
@[simp] theorem Part.modPage_commits (s : Part) (p : Fin 8) (f : Page → Page) : (s.modPage p f).commits = s.commits := rfl
@[simp] theorem Part.modPage_receiver (s : Part) (p : Fin 8) (f : Page → Page) : (s.modPage p f).receiver = s.receiver := rfl
@[simp] theorem Part.modPage_te (s : Part) (p : Fin 8) (f : Page → Page) : (s.modPage p f).te = s.te := rfl
@[simp] theorem Part.modPage_lifecycle (s : Part) (p : Fin 8) (f : Page → Page) : (s.modPage p f).lifecycle = s.lifecycle := rfl
@[simp] theorem Part.modPage_identity (s : Part) (p : Fin 8) (f : Page → Page) : (s.modPage p f).identity = s.identity := rfl
@[simp] theorem Part.modPage_lifeChanges (s : Part) (p : Fin 8) (f : Page → Page) : (s.modPage p f).lifeChanges = s.lifeChanges := rfl
@[simp] theorem Part.modPage_tamperCount (s : Part) (p : Fin 8) (f : Page → Page) : (s.modPage p f).tamperCount = s.tamperCount := rfl
@[simp] theorem Part.modPage_sealWindow (s : Part) (p : Fin 8) (f : Page → Page) : (s.modPage p f).sealWindow = s.sealWindow := rfl
@[simp] theorem Part.modPage_cover (s : Part) (p : Fin 8) (f : Page → Page) : (s.modPage p f).cover = s.cover := rfl
@[simp] theorem Part.modPage_debounce (s : Part) (p : Fin 8) (f : Page → Page) : (s.modPage p f).debounce = s.debounce := rfl
@[simp] theorem Part.modPage_store (s : Part) (p : Fin 8) (f : Page → Page) : (s.modPage p f).store = s.store := rfl
@[simp] theorem Part.modPage_draws (s : Part) (p : Fin 8) (f : Page → Page) : (s.modPage p f).draws = s.draws := rfl

/-! ### `Part.setCell` -/

@[simp] theorem Part.setCell_phase (s : Part) (c : Fin 48) (x : Cell) : (s.setCell c x).phase = s.phase := rfl
@[simp] theorem Part.setCell_powerCause (s : Part) (c : Fin 48) (x : Cell) : (s.setCell c x).powerCause = s.powerCause := rfl
@[simp] theorem Part.setCell_supply (s : Part) (c : Fin 48) (x : Cell) : (s.setCell c x).supply = s.supply := rfl
@[simp] theorem Part.setCell_rstn (s : Part) (c : Fin 48) (x : Cell) : (s.setCell c x).rstn = s.rstn := rfl
@[simp] theorem Part.setCell_pfw (s : Part) (c : Fin 48) (x : Cell) : (s.setCell c x).pfw = s.pfw := rfl
@[simp] theorem Part.setCell_tamp (s : Part) (c : Fin 48) (x : Cell) : (s.setCell c x).tamp = s.tamp := rfl
@[simp] theorem Part.setCell_ms (s : Part) (c : Fin 48) (x : Cell) : (s.setCell c x).ms = s.ms := rfl
@[simp] theorem Part.setCell_sec (s : Part) (c : Fin 48) (x : Cell) : (s.setCell c x).sec = s.sec := rfl
@[simp] theorem Part.setCell_mp (s : Part) (c : Fin 48) (x : Cell) : (s.setCell c x).mp = s.mp := rfl
@[simp] theorem Part.setCell_np (s : Part) (c : Fin 48) (x : Cell) : (s.setCell c x).np = s.np := rfl
@[simp] theorem Part.setCell_mpAside (s : Part) (c : Fin 48) (x : Cell) : (s.setCell c x).mpAside = s.mpAside := rfl
@[simp] theorem Part.setCell_npAside (s : Part) (c : Fin 48) (x : Cell) : (s.setCell c x).npAside = s.npAside := rfl
@[simp] theorem Part.setCell_slots (s : Part) (c : Fin 48) (x : Cell) : (s.setCell c x).slots = s.slots := rfl
@[simp] theorem Part.setCell_windows (s : Part) (c : Fin 48) (x : Cell) : (s.setCell c x).windows = s.windows := rfl
@[simp] theorem Part.setCell_pages (s : Part) (c : Fin 48) (x : Cell) : (s.setCell c x).pages = s.pages := rfl
@[simp] theorem Part.setCell_allocNext (s : Part) (c : Fin 48) (x : Cell) : (s.setCell c x).allocNext = s.allocNext := rfl
@[simp] theorem Part.setCell_facts (s : Part) (c : Fin 48) (x : Cell) : (s.setCell c x).facts = s.facts := rfl
@[simp] theorem Part.setCell_nextSeq (s : Part) (c : Fin 48) (x : Cell) : (s.setCell c x).nextSeq = s.nextSeq := rfl
@[simp] theorem Part.setCell_nextPageSeq (s : Part) (c : Fin 48) (x : Cell) : (s.setCell c x).nextPageSeq = s.nextPageSeq := rfl
@[simp] theorem Part.setCell_headStamped (s : Part) (c : Fin 48) (x : Cell) : (s.setCell c x).headStamped = s.headStamped := rfl
@[simp] theorem Part.setCell_reclaim (s : Part) (c : Fin 48) (x : Cell) : (s.setCell c x).reclaim = s.reclaim := rfl
@[simp] theorem Part.setCell_fullReclaims (s : Part) (c : Fin 48) (x : Cell) : (s.setCell c x).fullReclaims = s.fullReclaims := rfl
@[simp] theorem Part.setCell_mode (s : Part) (c : Fin 48) (x : Cell) : (s.setCell c x).mode = s.mode := rfl
@[simp] theorem Part.setCell_wear (s : Part) (c : Fin 48) (x : Cell) : (s.setCell c x).wear = s.wear := rfl
@[simp] theorem Part.setCell_jobs (s : Part) (c : Fin 48) (x : Cell) : (s.setCell c x).jobs = s.jobs := rfl
@[simp] theorem Part.setCell_nextAge (s : Part) (c : Fin 48) (x : Cell) : (s.setCell c x).nextAge = s.nextAge := rfl
@[simp] theorem Part.setCell_inFlight (s : Part) (c : Fin 48) (x : Cell) : (s.setCell c x).inFlight = s.inFlight := rfl
@[simp] theorem Part.setCell_commits (s : Part) (c : Fin 48) (x : Cell) : (s.setCell c x).commits = s.commits := rfl
@[simp] theorem Part.setCell_receiver (s : Part) (c : Fin 48) (x : Cell) : (s.setCell c x).receiver = s.receiver := rfl
@[simp] theorem Part.setCell_te (s : Part) (c : Fin 48) (x : Cell) : (s.setCell c x).te = s.te := rfl
@[simp] theorem Part.setCell_lifecycle (s : Part) (c : Fin 48) (x : Cell) : (s.setCell c x).lifecycle = s.lifecycle := rfl
@[simp] theorem Part.setCell_identity (s : Part) (c : Fin 48) (x : Cell) : (s.setCell c x).identity = s.identity := rfl
@[simp] theorem Part.setCell_lifeChanges (s : Part) (c : Fin 48) (x : Cell) : (s.setCell c x).lifeChanges = s.lifeChanges := rfl
@[simp] theorem Part.setCell_tamperCount (s : Part) (c : Fin 48) (x : Cell) : (s.setCell c x).tamperCount = s.tamperCount := rfl
@[simp] theorem Part.setCell_sealWindow (s : Part) (c : Fin 48) (x : Cell) : (s.setCell c x).sealWindow = s.sealWindow := rfl
@[simp] theorem Part.setCell_cover (s : Part) (c : Fin 48) (x : Cell) : (s.setCell c x).cover = s.cover := rfl
@[simp] theorem Part.setCell_debounce (s : Part) (c : Fin 48) (x : Cell) : (s.setCell c x).debounce = s.debounce := rfl
@[simp] theorem Part.setCell_store (s : Part) (c : Fin 48) (x : Cell) : (s.setCell c x).store = s.store := rfl
@[simp] theorem Part.setCell_draws (s : Part) (c : Fin 48) (x : Cell) : (s.setCell c x).draws = s.draws := rfl

/-! ### `Part.storeCell` -/

@[simp] theorem Part.storeCell_phase (s : Part) (c : Fin 48) (x : Item) : (s.storeCell c x).phase = s.phase := rfl
@[simp] theorem Part.storeCell_powerCause (s : Part) (c : Fin 48) (x : Item) : (s.storeCell c x).powerCause = s.powerCause := rfl
@[simp] theorem Part.storeCell_supply (s : Part) (c : Fin 48) (x : Item) : (s.storeCell c x).supply = s.supply := rfl
@[simp] theorem Part.storeCell_rstn (s : Part) (c : Fin 48) (x : Item) : (s.storeCell c x).rstn = s.rstn := rfl
@[simp] theorem Part.storeCell_pfw (s : Part) (c : Fin 48) (x : Item) : (s.storeCell c x).pfw = s.pfw := rfl
@[simp] theorem Part.storeCell_tamp (s : Part) (c : Fin 48) (x : Item) : (s.storeCell c x).tamp = s.tamp := rfl
@[simp] theorem Part.storeCell_ms (s : Part) (c : Fin 48) (x : Item) : (s.storeCell c x).ms = s.ms := rfl
@[simp] theorem Part.storeCell_sec (s : Part) (c : Fin 48) (x : Item) : (s.storeCell c x).sec = s.sec := rfl
@[simp] theorem Part.storeCell_mp (s : Part) (c : Fin 48) (x : Item) : (s.storeCell c x).mp = s.mp := rfl
@[simp] theorem Part.storeCell_np (s : Part) (c : Fin 48) (x : Item) : (s.storeCell c x).np = s.np := rfl
@[simp] theorem Part.storeCell_mpAside (s : Part) (c : Fin 48) (x : Item) : (s.storeCell c x).mpAside = s.mpAside := rfl
@[simp] theorem Part.storeCell_npAside (s : Part) (c : Fin 48) (x : Item) : (s.storeCell c x).npAside = s.npAside := rfl
@[simp] theorem Part.storeCell_slots (s : Part) (c : Fin 48) (x : Item) : (s.storeCell c x).slots = s.slots := rfl
@[simp] theorem Part.storeCell_windows (s : Part) (c : Fin 48) (x : Item) : (s.storeCell c x).windows = s.windows := rfl
@[simp] theorem Part.storeCell_pages (s : Part) (c : Fin 48) (x : Item) : (s.storeCell c x).pages = s.pages := rfl
@[simp] theorem Part.storeCell_cells (s : Part) (c : Fin 48) (x : Item) : (s.storeCell c x).cells = s.cells := rfl
@[simp] theorem Part.storeCell_allocNext (s : Part) (c : Fin 48) (x : Item) : (s.storeCell c x).allocNext = s.allocNext := rfl
@[simp] theorem Part.storeCell_facts (s : Part) (c : Fin 48) (x : Item) : (s.storeCell c x).facts = s.facts := rfl
@[simp] theorem Part.storeCell_nextSeq (s : Part) (c : Fin 48) (x : Item) : (s.storeCell c x).nextSeq = s.nextSeq := rfl
@[simp] theorem Part.storeCell_nextPageSeq (s : Part) (c : Fin 48) (x : Item) : (s.storeCell c x).nextPageSeq = s.nextPageSeq := rfl
@[simp] theorem Part.storeCell_headStamped (s : Part) (c : Fin 48) (x : Item) : (s.storeCell c x).headStamped = s.headStamped := rfl
@[simp] theorem Part.storeCell_reclaim (s : Part) (c : Fin 48) (x : Item) : (s.storeCell c x).reclaim = s.reclaim := rfl
@[simp] theorem Part.storeCell_fullReclaims (s : Part) (c : Fin 48) (x : Item) : (s.storeCell c x).fullReclaims = s.fullReclaims := rfl
@[simp] theorem Part.storeCell_mode (s : Part) (c : Fin 48) (x : Item) : (s.storeCell c x).mode = s.mode := rfl
@[simp] theorem Part.storeCell_wear (s : Part) (c : Fin 48) (x : Item) : (s.storeCell c x).wear = s.wear := rfl
@[simp] theorem Part.storeCell_jobs (s : Part) (c : Fin 48) (x : Item) : (s.storeCell c x).jobs = s.jobs := rfl
@[simp] theorem Part.storeCell_nextAge (s : Part) (c : Fin 48) (x : Item) : (s.storeCell c x).nextAge = s.nextAge := rfl
@[simp] theorem Part.storeCell_inFlight (s : Part) (c : Fin 48) (x : Item) : (s.storeCell c x).inFlight = s.inFlight := rfl
@[simp] theorem Part.storeCell_commits (s : Part) (c : Fin 48) (x : Item) : (s.storeCell c x).commits = s.commits := rfl
@[simp] theorem Part.storeCell_receiver (s : Part) (c : Fin 48) (x : Item) : (s.storeCell c x).receiver = s.receiver := rfl
@[simp] theorem Part.storeCell_te (s : Part) (c : Fin 48) (x : Item) : (s.storeCell c x).te = s.te := rfl
@[simp] theorem Part.storeCell_lifecycle (s : Part) (c : Fin 48) (x : Item) : (s.storeCell c x).lifecycle = s.lifecycle := rfl
@[simp] theorem Part.storeCell_identity (s : Part) (c : Fin 48) (x : Item) : (s.storeCell c x).identity = s.identity := rfl
@[simp] theorem Part.storeCell_lifeChanges (s : Part) (c : Fin 48) (x : Item) : (s.storeCell c x).lifeChanges = s.lifeChanges := rfl
@[simp] theorem Part.storeCell_tamperCount (s : Part) (c : Fin 48) (x : Item) : (s.storeCell c x).tamperCount = s.tamperCount := rfl
@[simp] theorem Part.storeCell_sealWindow (s : Part) (c : Fin 48) (x : Item) : (s.storeCell c x).sealWindow = s.sealWindow := rfl
@[simp] theorem Part.storeCell_cover (s : Part) (c : Fin 48) (x : Item) : (s.storeCell c x).cover = s.cover := rfl
@[simp] theorem Part.storeCell_debounce (s : Part) (c : Fin 48) (x : Item) : (s.storeCell c x).debounce = s.debounce := rfl
@[simp] theorem Part.storeCell_draws (s : Part) (c : Fin 48) (x : Item) : (s.storeCell c x).draws = s.draws := rfl

/-! ### `Part.storePage` -/

@[simp] theorem Part.storePage_phase (s : Part) (p : Fin 8) (f : StoredPage → StoredPage) : (s.storePage p f).phase = s.phase := rfl
@[simp] theorem Part.storePage_powerCause (s : Part) (p : Fin 8) (f : StoredPage → StoredPage) : (s.storePage p f).powerCause = s.powerCause := rfl
@[simp] theorem Part.storePage_supply (s : Part) (p : Fin 8) (f : StoredPage → StoredPage) : (s.storePage p f).supply = s.supply := rfl
@[simp] theorem Part.storePage_rstn (s : Part) (p : Fin 8) (f : StoredPage → StoredPage) : (s.storePage p f).rstn = s.rstn := rfl
@[simp] theorem Part.storePage_pfw (s : Part) (p : Fin 8) (f : StoredPage → StoredPage) : (s.storePage p f).pfw = s.pfw := rfl
@[simp] theorem Part.storePage_tamp (s : Part) (p : Fin 8) (f : StoredPage → StoredPage) : (s.storePage p f).tamp = s.tamp := rfl
@[simp] theorem Part.storePage_ms (s : Part) (p : Fin 8) (f : StoredPage → StoredPage) : (s.storePage p f).ms = s.ms := rfl
@[simp] theorem Part.storePage_sec (s : Part) (p : Fin 8) (f : StoredPage → StoredPage) : (s.storePage p f).sec = s.sec := rfl
@[simp] theorem Part.storePage_mp (s : Part) (p : Fin 8) (f : StoredPage → StoredPage) : (s.storePage p f).mp = s.mp := rfl
@[simp] theorem Part.storePage_np (s : Part) (p : Fin 8) (f : StoredPage → StoredPage) : (s.storePage p f).np = s.np := rfl
@[simp] theorem Part.storePage_mpAside (s : Part) (p : Fin 8) (f : StoredPage → StoredPage) : (s.storePage p f).mpAside = s.mpAside := rfl
@[simp] theorem Part.storePage_npAside (s : Part) (p : Fin 8) (f : StoredPage → StoredPage) : (s.storePage p f).npAside = s.npAside := rfl
@[simp] theorem Part.storePage_slots (s : Part) (p : Fin 8) (f : StoredPage → StoredPage) : (s.storePage p f).slots = s.slots := rfl
@[simp] theorem Part.storePage_windows (s : Part) (p : Fin 8) (f : StoredPage → StoredPage) : (s.storePage p f).windows = s.windows := rfl
@[simp] theorem Part.storePage_pages (s : Part) (p : Fin 8) (f : StoredPage → StoredPage) : (s.storePage p f).pages = s.pages := rfl
@[simp] theorem Part.storePage_cells (s : Part) (p : Fin 8) (f : StoredPage → StoredPage) : (s.storePage p f).cells = s.cells := rfl
@[simp] theorem Part.storePage_allocNext (s : Part) (p : Fin 8) (f : StoredPage → StoredPage) : (s.storePage p f).allocNext = s.allocNext := rfl
@[simp] theorem Part.storePage_facts (s : Part) (p : Fin 8) (f : StoredPage → StoredPage) : (s.storePage p f).facts = s.facts := rfl
@[simp] theorem Part.storePage_nextSeq (s : Part) (p : Fin 8) (f : StoredPage → StoredPage) : (s.storePage p f).nextSeq = s.nextSeq := rfl
@[simp] theorem Part.storePage_nextPageSeq (s : Part) (p : Fin 8) (f : StoredPage → StoredPage) : (s.storePage p f).nextPageSeq = s.nextPageSeq := rfl
@[simp] theorem Part.storePage_headStamped (s : Part) (p : Fin 8) (f : StoredPage → StoredPage) : (s.storePage p f).headStamped = s.headStamped := rfl
@[simp] theorem Part.storePage_reclaim (s : Part) (p : Fin 8) (f : StoredPage → StoredPage) : (s.storePage p f).reclaim = s.reclaim := rfl
@[simp] theorem Part.storePage_fullReclaims (s : Part) (p : Fin 8) (f : StoredPage → StoredPage) : (s.storePage p f).fullReclaims = s.fullReclaims := rfl
@[simp] theorem Part.storePage_mode (s : Part) (p : Fin 8) (f : StoredPage → StoredPage) : (s.storePage p f).mode = s.mode := rfl
@[simp] theorem Part.storePage_wear (s : Part) (p : Fin 8) (f : StoredPage → StoredPage) : (s.storePage p f).wear = s.wear := rfl
@[simp] theorem Part.storePage_jobs (s : Part) (p : Fin 8) (f : StoredPage → StoredPage) : (s.storePage p f).jobs = s.jobs := rfl
@[simp] theorem Part.storePage_nextAge (s : Part) (p : Fin 8) (f : StoredPage → StoredPage) : (s.storePage p f).nextAge = s.nextAge := rfl
@[simp] theorem Part.storePage_inFlight (s : Part) (p : Fin 8) (f : StoredPage → StoredPage) : (s.storePage p f).inFlight = s.inFlight := rfl
@[simp] theorem Part.storePage_commits (s : Part) (p : Fin 8) (f : StoredPage → StoredPage) : (s.storePage p f).commits = s.commits := rfl
@[simp] theorem Part.storePage_receiver (s : Part) (p : Fin 8) (f : StoredPage → StoredPage) : (s.storePage p f).receiver = s.receiver := rfl
@[simp] theorem Part.storePage_te (s : Part) (p : Fin 8) (f : StoredPage → StoredPage) : (s.storePage p f).te = s.te := rfl
@[simp] theorem Part.storePage_lifecycle (s : Part) (p : Fin 8) (f : StoredPage → StoredPage) : (s.storePage p f).lifecycle = s.lifecycle := rfl
@[simp] theorem Part.storePage_identity (s : Part) (p : Fin 8) (f : StoredPage → StoredPage) : (s.storePage p f).identity = s.identity := rfl
@[simp] theorem Part.storePage_lifeChanges (s : Part) (p : Fin 8) (f : StoredPage → StoredPage) : (s.storePage p f).lifeChanges = s.lifeChanges := rfl
@[simp] theorem Part.storePage_tamperCount (s : Part) (p : Fin 8) (f : StoredPage → StoredPage) : (s.storePage p f).tamperCount = s.tamperCount := rfl
@[simp] theorem Part.storePage_sealWindow (s : Part) (p : Fin 8) (f : StoredPage → StoredPage) : (s.storePage p f).sealWindow = s.sealWindow := rfl
@[simp] theorem Part.storePage_cover (s : Part) (p : Fin 8) (f : StoredPage → StoredPage) : (s.storePage p f).cover = s.cover := rfl
@[simp] theorem Part.storePage_debounce (s : Part) (p : Fin 8) (f : StoredPage → StoredPage) : (s.storePage p f).debounce = s.debounce := rfl
@[simp] theorem Part.storePage_draws (s : Part) (p : Fin 8) (f : StoredPage → StoredPage) : (s.storePage p f).draws = s.draws := rfl

/-! ### `Part.modWindow` -/

@[simp] theorem Part.modWindow_phase (s : Part) (i : Fin 16) (g : Nat) (f : Window → Window) : (s.modWindow i g f).phase = s.phase := rfl
@[simp] theorem Part.modWindow_powerCause (s : Part) (i : Fin 16) (g : Nat) (f : Window → Window) : (s.modWindow i g f).powerCause = s.powerCause := rfl
@[simp] theorem Part.modWindow_supply (s : Part) (i : Fin 16) (g : Nat) (f : Window → Window) : (s.modWindow i g f).supply = s.supply := rfl
@[simp] theorem Part.modWindow_rstn (s : Part) (i : Fin 16) (g : Nat) (f : Window → Window) : (s.modWindow i g f).rstn = s.rstn := rfl
@[simp] theorem Part.modWindow_pfw (s : Part) (i : Fin 16) (g : Nat) (f : Window → Window) : (s.modWindow i g f).pfw = s.pfw := rfl
@[simp] theorem Part.modWindow_tamp (s : Part) (i : Fin 16) (g : Nat) (f : Window → Window) : (s.modWindow i g f).tamp = s.tamp := rfl
@[simp] theorem Part.modWindow_ms (s : Part) (i : Fin 16) (g : Nat) (f : Window → Window) : (s.modWindow i g f).ms = s.ms := rfl
@[simp] theorem Part.modWindow_sec (s : Part) (i : Fin 16) (g : Nat) (f : Window → Window) : (s.modWindow i g f).sec = s.sec := rfl
@[simp] theorem Part.modWindow_mp (s : Part) (i : Fin 16) (g : Nat) (f : Window → Window) : (s.modWindow i g f).mp = s.mp := rfl
@[simp] theorem Part.modWindow_np (s : Part) (i : Fin 16) (g : Nat) (f : Window → Window) : (s.modWindow i g f).np = s.np := rfl
@[simp] theorem Part.modWindow_mpAside (s : Part) (i : Fin 16) (g : Nat) (f : Window → Window) : (s.modWindow i g f).mpAside = s.mpAside := rfl
@[simp] theorem Part.modWindow_npAside (s : Part) (i : Fin 16) (g : Nat) (f : Window → Window) : (s.modWindow i g f).npAside = s.npAside := rfl
@[simp] theorem Part.modWindow_slots (s : Part) (i : Fin 16) (g : Nat) (f : Window → Window) : (s.modWindow i g f).slots = s.slots := rfl
@[simp] theorem Part.modWindow_pages (s : Part) (i : Fin 16) (g : Nat) (f : Window → Window) : (s.modWindow i g f).pages = s.pages := rfl
@[simp] theorem Part.modWindow_cells (s : Part) (i : Fin 16) (g : Nat) (f : Window → Window) : (s.modWindow i g f).cells = s.cells := rfl
@[simp] theorem Part.modWindow_allocNext (s : Part) (i : Fin 16) (g : Nat) (f : Window → Window) : (s.modWindow i g f).allocNext = s.allocNext := rfl
@[simp] theorem Part.modWindow_facts (s : Part) (i : Fin 16) (g : Nat) (f : Window → Window) : (s.modWindow i g f).facts = s.facts := rfl
@[simp] theorem Part.modWindow_nextSeq (s : Part) (i : Fin 16) (g : Nat) (f : Window → Window) : (s.modWindow i g f).nextSeq = s.nextSeq := rfl
@[simp] theorem Part.modWindow_nextPageSeq (s : Part) (i : Fin 16) (g : Nat) (f : Window → Window) : (s.modWindow i g f).nextPageSeq = s.nextPageSeq := rfl
@[simp] theorem Part.modWindow_headStamped (s : Part) (i : Fin 16) (g : Nat) (f : Window → Window) : (s.modWindow i g f).headStamped = s.headStamped := rfl
@[simp] theorem Part.modWindow_reclaim (s : Part) (i : Fin 16) (g : Nat) (f : Window → Window) : (s.modWindow i g f).reclaim = s.reclaim := rfl
@[simp] theorem Part.modWindow_fullReclaims (s : Part) (i : Fin 16) (g : Nat) (f : Window → Window) : (s.modWindow i g f).fullReclaims = s.fullReclaims := rfl
@[simp] theorem Part.modWindow_mode (s : Part) (i : Fin 16) (g : Nat) (f : Window → Window) : (s.modWindow i g f).mode = s.mode := rfl
@[simp] theorem Part.modWindow_wear (s : Part) (i : Fin 16) (g : Nat) (f : Window → Window) : (s.modWindow i g f).wear = s.wear := rfl
@[simp] theorem Part.modWindow_jobs (s : Part) (i : Fin 16) (g : Nat) (f : Window → Window) : (s.modWindow i g f).jobs = s.jobs := rfl
@[simp] theorem Part.modWindow_nextAge (s : Part) (i : Fin 16) (g : Nat) (f : Window → Window) : (s.modWindow i g f).nextAge = s.nextAge := rfl
@[simp] theorem Part.modWindow_inFlight (s : Part) (i : Fin 16) (g : Nat) (f : Window → Window) : (s.modWindow i g f).inFlight = s.inFlight := rfl
@[simp] theorem Part.modWindow_commits (s : Part) (i : Fin 16) (g : Nat) (f : Window → Window) : (s.modWindow i g f).commits = s.commits := rfl
@[simp] theorem Part.modWindow_receiver (s : Part) (i : Fin 16) (g : Nat) (f : Window → Window) : (s.modWindow i g f).receiver = s.receiver := rfl
@[simp] theorem Part.modWindow_te (s : Part) (i : Fin 16) (g : Nat) (f : Window → Window) : (s.modWindow i g f).te = s.te := rfl
@[simp] theorem Part.modWindow_lifecycle (s : Part) (i : Fin 16) (g : Nat) (f : Window → Window) : (s.modWindow i g f).lifecycle = s.lifecycle := rfl
@[simp] theorem Part.modWindow_identity (s : Part) (i : Fin 16) (g : Nat) (f : Window → Window) : (s.modWindow i g f).identity = s.identity := rfl
@[simp] theorem Part.modWindow_lifeChanges (s : Part) (i : Fin 16) (g : Nat) (f : Window → Window) : (s.modWindow i g f).lifeChanges = s.lifeChanges := rfl
@[simp] theorem Part.modWindow_tamperCount (s : Part) (i : Fin 16) (g : Nat) (f : Window → Window) : (s.modWindow i g f).tamperCount = s.tamperCount := rfl
@[simp] theorem Part.modWindow_sealWindow (s : Part) (i : Fin 16) (g : Nat) (f : Window → Window) : (s.modWindow i g f).sealWindow = s.sealWindow := rfl
@[simp] theorem Part.modWindow_cover (s : Part) (i : Fin 16) (g : Nat) (f : Window → Window) : (s.modWindow i g f).cover = s.cover := rfl
@[simp] theorem Part.modWindow_debounce (s : Part) (i : Fin 16) (g : Nat) (f : Window → Window) : (s.modWindow i g f).debounce = s.debounce := rfl
@[simp] theorem Part.modWindow_store (s : Part) (i : Fin 16) (g : Nat) (f : Window → Window) : (s.modWindow i g f).store = s.store := rfl
@[simp] theorem Part.modWindow_draws (s : Part) (i : Fin 16) (g : Nat) (f : Window → Window) : (s.modWindow i g f).draws = s.draws := rfl

/-! ### `Part.place` -/

@[simp] theorem Part.place_phase (s : Part) (id : JobId) (c : Nat) (r : Requester) (k : List (Nat × Nat)) : (s.place id c r k).phase = s.phase := rfl
@[simp] theorem Part.place_powerCause (s : Part) (id : JobId) (c : Nat) (r : Requester) (k : List (Nat × Nat)) : (s.place id c r k).powerCause = s.powerCause := rfl
@[simp] theorem Part.place_supply (s : Part) (id : JobId) (c : Nat) (r : Requester) (k : List (Nat × Nat)) : (s.place id c r k).supply = s.supply := rfl
@[simp] theorem Part.place_rstn (s : Part) (id : JobId) (c : Nat) (r : Requester) (k : List (Nat × Nat)) : (s.place id c r k).rstn = s.rstn := rfl
@[simp] theorem Part.place_pfw (s : Part) (id : JobId) (c : Nat) (r : Requester) (k : List (Nat × Nat)) : (s.place id c r k).pfw = s.pfw := rfl
@[simp] theorem Part.place_tamp (s : Part) (id : JobId) (c : Nat) (r : Requester) (k : List (Nat × Nat)) : (s.place id c r k).tamp = s.tamp := rfl
@[simp] theorem Part.place_ms (s : Part) (id : JobId) (c : Nat) (r : Requester) (k : List (Nat × Nat)) : (s.place id c r k).ms = s.ms := rfl
@[simp] theorem Part.place_sec (s : Part) (id : JobId) (c : Nat) (r : Requester) (k : List (Nat × Nat)) : (s.place id c r k).sec = s.sec := rfl
@[simp] theorem Part.place_mp (s : Part) (id : JobId) (c : Nat) (r : Requester) (k : List (Nat × Nat)) : (s.place id c r k).mp = s.mp := rfl
@[simp] theorem Part.place_np (s : Part) (id : JobId) (c : Nat) (r : Requester) (k : List (Nat × Nat)) : (s.place id c r k).np = s.np := rfl
@[simp] theorem Part.place_mpAside (s : Part) (id : JobId) (c : Nat) (r : Requester) (k : List (Nat × Nat)) : (s.place id c r k).mpAside = s.mpAside := rfl
@[simp] theorem Part.place_npAside (s : Part) (id : JobId) (c : Nat) (r : Requester) (k : List (Nat × Nat)) : (s.place id c r k).npAside = s.npAside := rfl
@[simp] theorem Part.place_slots (s : Part) (id : JobId) (c : Nat) (r : Requester) (k : List (Nat × Nat)) : (s.place id c r k).slots = s.slots := rfl
@[simp] theorem Part.place_windows (s : Part) (id : JobId) (c : Nat) (r : Requester) (k : List (Nat × Nat)) : (s.place id c r k).windows = s.windows := rfl
@[simp] theorem Part.place_pages (s : Part) (id : JobId) (c : Nat) (r : Requester) (k : List (Nat × Nat)) : (s.place id c r k).pages = s.pages := rfl
@[simp] theorem Part.place_cells (s : Part) (id : JobId) (c : Nat) (r : Requester) (k : List (Nat × Nat)) : (s.place id c r k).cells = s.cells := rfl
@[simp] theorem Part.place_allocNext (s : Part) (id : JobId) (c : Nat) (r : Requester) (k : List (Nat × Nat)) : (s.place id c r k).allocNext = s.allocNext := rfl
@[simp] theorem Part.place_facts (s : Part) (id : JobId) (c : Nat) (r : Requester) (k : List (Nat × Nat)) : (s.place id c r k).facts = s.facts := rfl
@[simp] theorem Part.place_nextSeq (s : Part) (id : JobId) (c : Nat) (r : Requester) (k : List (Nat × Nat)) : (s.place id c r k).nextSeq = s.nextSeq := rfl
@[simp] theorem Part.place_nextPageSeq (s : Part) (id : JobId) (c : Nat) (r : Requester) (k : List (Nat × Nat)) : (s.place id c r k).nextPageSeq = s.nextPageSeq := rfl
@[simp] theorem Part.place_headStamped (s : Part) (id : JobId) (c : Nat) (r : Requester) (k : List (Nat × Nat)) : (s.place id c r k).headStamped = s.headStamped := rfl
@[simp] theorem Part.place_reclaim (s : Part) (id : JobId) (c : Nat) (r : Requester) (k : List (Nat × Nat)) : (s.place id c r k).reclaim = s.reclaim := rfl
@[simp] theorem Part.place_fullReclaims (s : Part) (id : JobId) (c : Nat) (r : Requester) (k : List (Nat × Nat)) : (s.place id c r k).fullReclaims = s.fullReclaims := rfl
@[simp] theorem Part.place_mode (s : Part) (id : JobId) (c : Nat) (r : Requester) (k : List (Nat × Nat)) : (s.place id c r k).mode = s.mode := rfl
@[simp] theorem Part.place_wear (s : Part) (id : JobId) (c : Nat) (r : Requester) (k : List (Nat × Nat)) : (s.place id c r k).wear = s.wear := rfl
@[simp] theorem Part.place_inFlight (s : Part) (id : JobId) (c : Nat) (r : Requester) (k : List (Nat × Nat)) : (s.place id c r k).inFlight = s.inFlight := rfl
@[simp] theorem Part.place_commits (s : Part) (id : JobId) (c : Nat) (r : Requester) (k : List (Nat × Nat)) : (s.place id c r k).commits = s.commits := rfl
@[simp] theorem Part.place_receiver (s : Part) (id : JobId) (c : Nat) (r : Requester) (k : List (Nat × Nat)) : (s.place id c r k).receiver = s.receiver := rfl
@[simp] theorem Part.place_te (s : Part) (id : JobId) (c : Nat) (r : Requester) (k : List (Nat × Nat)) : (s.place id c r k).te = s.te := rfl
@[simp] theorem Part.place_lifecycle (s : Part) (id : JobId) (c : Nat) (r : Requester) (k : List (Nat × Nat)) : (s.place id c r k).lifecycle = s.lifecycle := rfl
@[simp] theorem Part.place_identity (s : Part) (id : JobId) (c : Nat) (r : Requester) (k : List (Nat × Nat)) : (s.place id c r k).identity = s.identity := rfl
@[simp] theorem Part.place_lifeChanges (s : Part) (id : JobId) (c : Nat) (r : Requester) (k : List (Nat × Nat)) : (s.place id c r k).lifeChanges = s.lifeChanges := rfl
@[simp] theorem Part.place_tamperCount (s : Part) (id : JobId) (c : Nat) (r : Requester) (k : List (Nat × Nat)) : (s.place id c r k).tamperCount = s.tamperCount := rfl
@[simp] theorem Part.place_sealWindow (s : Part) (id : JobId) (c : Nat) (r : Requester) (k : List (Nat × Nat)) : (s.place id c r k).sealWindow = s.sealWindow := rfl
@[simp] theorem Part.place_cover (s : Part) (id : JobId) (c : Nat) (r : Requester) (k : List (Nat × Nat)) : (s.place id c r k).cover = s.cover := rfl
@[simp] theorem Part.place_debounce (s : Part) (id : JobId) (c : Nat) (r : Requester) (k : List (Nat × Nat)) : (s.place id c r k).debounce = s.debounce := rfl
@[simp] theorem Part.place_store (s : Part) (id : JobId) (c : Nat) (r : Requester) (k : List (Nat × Nat)) : (s.place id c r k).store = s.store := rfl
@[simp] theorem Part.place_draws (s : Part) (id : JobId) (c : Nat) (r : Requester) (k : List (Nat × Nat)) : (s.place id c r k).draws = s.draws := rfl

/-! ### `Part.unplace` -/

@[simp] theorem Part.unplace_phase (s : Part) (id : JobId) : (s.unplace id).phase = s.phase := rfl
@[simp] theorem Part.unplace_powerCause (s : Part) (id : JobId) : (s.unplace id).powerCause = s.powerCause := rfl
@[simp] theorem Part.unplace_supply (s : Part) (id : JobId) : (s.unplace id).supply = s.supply := rfl
@[simp] theorem Part.unplace_rstn (s : Part) (id : JobId) : (s.unplace id).rstn = s.rstn := rfl
@[simp] theorem Part.unplace_pfw (s : Part) (id : JobId) : (s.unplace id).pfw = s.pfw := rfl
@[simp] theorem Part.unplace_tamp (s : Part) (id : JobId) : (s.unplace id).tamp = s.tamp := rfl
@[simp] theorem Part.unplace_ms (s : Part) (id : JobId) : (s.unplace id).ms = s.ms := rfl
@[simp] theorem Part.unplace_sec (s : Part) (id : JobId) : (s.unplace id).sec = s.sec := rfl
@[simp] theorem Part.unplace_mp (s : Part) (id : JobId) : (s.unplace id).mp = s.mp := rfl
@[simp] theorem Part.unplace_np (s : Part) (id : JobId) : (s.unplace id).np = s.np := rfl
@[simp] theorem Part.unplace_mpAside (s : Part) (id : JobId) : (s.unplace id).mpAside = s.mpAside := rfl
@[simp] theorem Part.unplace_npAside (s : Part) (id : JobId) : (s.unplace id).npAside = s.npAside := rfl
@[simp] theorem Part.unplace_slots (s : Part) (id : JobId) : (s.unplace id).slots = s.slots := rfl
@[simp] theorem Part.unplace_windows (s : Part) (id : JobId) : (s.unplace id).windows = s.windows := rfl
@[simp] theorem Part.unplace_pages (s : Part) (id : JobId) : (s.unplace id).pages = s.pages := rfl
@[simp] theorem Part.unplace_cells (s : Part) (id : JobId) : (s.unplace id).cells = s.cells := rfl
@[simp] theorem Part.unplace_allocNext (s : Part) (id : JobId) : (s.unplace id).allocNext = s.allocNext := rfl
@[simp] theorem Part.unplace_facts (s : Part) (id : JobId) : (s.unplace id).facts = s.facts := rfl
@[simp] theorem Part.unplace_nextSeq (s : Part) (id : JobId) : (s.unplace id).nextSeq = s.nextSeq := rfl
@[simp] theorem Part.unplace_nextPageSeq (s : Part) (id : JobId) : (s.unplace id).nextPageSeq = s.nextPageSeq := rfl
@[simp] theorem Part.unplace_headStamped (s : Part) (id : JobId) : (s.unplace id).headStamped = s.headStamped := rfl
@[simp] theorem Part.unplace_reclaim (s : Part) (id : JobId) : (s.unplace id).reclaim = s.reclaim := rfl
@[simp] theorem Part.unplace_fullReclaims (s : Part) (id : JobId) : (s.unplace id).fullReclaims = s.fullReclaims := rfl
@[simp] theorem Part.unplace_mode (s : Part) (id : JobId) : (s.unplace id).mode = s.mode := rfl
@[simp] theorem Part.unplace_wear (s : Part) (id : JobId) : (s.unplace id).wear = s.wear := rfl
@[simp] theorem Part.unplace_nextAge (s : Part) (id : JobId) : (s.unplace id).nextAge = s.nextAge := rfl
@[simp] theorem Part.unplace_inFlight (s : Part) (id : JobId) : (s.unplace id).inFlight = s.inFlight := rfl
@[simp] theorem Part.unplace_commits (s : Part) (id : JobId) : (s.unplace id).commits = s.commits := rfl
@[simp] theorem Part.unplace_receiver (s : Part) (id : JobId) : (s.unplace id).receiver = s.receiver := rfl
@[simp] theorem Part.unplace_te (s : Part) (id : JobId) : (s.unplace id).te = s.te := rfl
@[simp] theorem Part.unplace_lifecycle (s : Part) (id : JobId) : (s.unplace id).lifecycle = s.lifecycle := rfl
@[simp] theorem Part.unplace_identity (s : Part) (id : JobId) : (s.unplace id).identity = s.identity := rfl
@[simp] theorem Part.unplace_lifeChanges (s : Part) (id : JobId) : (s.unplace id).lifeChanges = s.lifeChanges := rfl
@[simp] theorem Part.unplace_tamperCount (s : Part) (id : JobId) : (s.unplace id).tamperCount = s.tamperCount := rfl
@[simp] theorem Part.unplace_sealWindow (s : Part) (id : JobId) : (s.unplace id).sealWindow = s.sealWindow := rfl
@[simp] theorem Part.unplace_cover (s : Part) (id : JobId) : (s.unplace id).cover = s.cover := rfl
@[simp] theorem Part.unplace_debounce (s : Part) (id : JobId) : (s.unplace id).debounce = s.debounce := rfl
@[simp] theorem Part.unplace_store (s : Part) (id : JobId) : (s.unplace id).store = s.store := rfl
@[simp] theorem Part.unplace_draws (s : Part) (id : JobId) : (s.unplace id).draws = s.draws := rfl

/-! ### `Part.placeTag` -/

@[simp] theorem Part.placeTag_phase (s : Part) (c : Client) (j : TagJob) : (s.placeTag c j).phase = s.phase := rfl
@[simp] theorem Part.placeTag_powerCause (s : Part) (c : Client) (j : TagJob) : (s.placeTag c j).powerCause = s.powerCause := rfl
@[simp] theorem Part.placeTag_supply (s : Part) (c : Client) (j : TagJob) : (s.placeTag c j).supply = s.supply := rfl
@[simp] theorem Part.placeTag_rstn (s : Part) (c : Client) (j : TagJob) : (s.placeTag c j).rstn = s.rstn := rfl
@[simp] theorem Part.placeTag_pfw (s : Part) (c : Client) (j : TagJob) : (s.placeTag c j).pfw = s.pfw := rfl
@[simp] theorem Part.placeTag_tamp (s : Part) (c : Client) (j : TagJob) : (s.placeTag c j).tamp = s.tamp := rfl
@[simp] theorem Part.placeTag_ms (s : Part) (c : Client) (j : TagJob) : (s.placeTag c j).ms = s.ms := rfl
@[simp] theorem Part.placeTag_sec (s : Part) (c : Client) (j : TagJob) : (s.placeTag c j).sec = s.sec := rfl
@[simp] theorem Part.placeTag_mp (s : Part) (c : Client) (j : TagJob) : (s.placeTag c j).mp = s.mp := rfl
@[simp] theorem Part.placeTag_np (s : Part) (c : Client) (j : TagJob) : (s.placeTag c j).np = s.np := rfl
@[simp] theorem Part.placeTag_mpAside (s : Part) (c : Client) (j : TagJob) : (s.placeTag c j).mpAside = s.mpAside := rfl
@[simp] theorem Part.placeTag_npAside (s : Part) (c : Client) (j : TagJob) : (s.placeTag c j).npAside = s.npAside := rfl
@[simp] theorem Part.placeTag_slots (s : Part) (c : Client) (j : TagJob) : (s.placeTag c j).slots = s.slots := rfl
@[simp] theorem Part.placeTag_windows (s : Part) (c : Client) (j : TagJob) : (s.placeTag c j).windows = s.windows := rfl
@[simp] theorem Part.placeTag_pages (s : Part) (c : Client) (j : TagJob) : (s.placeTag c j).pages = s.pages := rfl
@[simp] theorem Part.placeTag_cells (s : Part) (c : Client) (j : TagJob) : (s.placeTag c j).cells = s.cells := rfl
@[simp] theorem Part.placeTag_allocNext (s : Part) (c : Client) (j : TagJob) : (s.placeTag c j).allocNext = s.allocNext := rfl
@[simp] theorem Part.placeTag_facts (s : Part) (c : Client) (j : TagJob) : (s.placeTag c j).facts = s.facts := rfl
@[simp] theorem Part.placeTag_nextSeq (s : Part) (c : Client) (j : TagJob) : (s.placeTag c j).nextSeq = s.nextSeq := rfl
@[simp] theorem Part.placeTag_nextPageSeq (s : Part) (c : Client) (j : TagJob) : (s.placeTag c j).nextPageSeq = s.nextPageSeq := rfl
@[simp] theorem Part.placeTag_headStamped (s : Part) (c : Client) (j : TagJob) : (s.placeTag c j).headStamped = s.headStamped := rfl
@[simp] theorem Part.placeTag_reclaim (s : Part) (c : Client) (j : TagJob) : (s.placeTag c j).reclaim = s.reclaim := rfl
@[simp] theorem Part.placeTag_fullReclaims (s : Part) (c : Client) (j : TagJob) : (s.placeTag c j).fullReclaims = s.fullReclaims := rfl
@[simp] theorem Part.placeTag_mode (s : Part) (c : Client) (j : TagJob) : (s.placeTag c j).mode = s.mode := rfl
@[simp] theorem Part.placeTag_wear (s : Part) (c : Client) (j : TagJob) : (s.placeTag c j).wear = s.wear := rfl
@[simp] theorem Part.placeTag_jobs (s : Part) (c : Client) (j : TagJob) : (s.placeTag c j).jobs = s.jobs := rfl
@[simp] theorem Part.placeTag_nextAge (s : Part) (c : Client) (j : TagJob) : (s.placeTag c j).nextAge = s.nextAge := rfl
@[simp] theorem Part.placeTag_inFlight (s : Part) (c : Client) (j : TagJob) : (s.placeTag c j).inFlight = s.inFlight := rfl
@[simp] theorem Part.placeTag_commits (s : Part) (c : Client) (j : TagJob) : (s.placeTag c j).commits = s.commits := rfl
@[simp] theorem Part.placeTag_receiver (s : Part) (c : Client) (j : TagJob) : (s.placeTag c j).receiver = s.receiver := rfl
@[simp] theorem Part.placeTag_lifecycle (s : Part) (c : Client) (j : TagJob) : (s.placeTag c j).lifecycle = s.lifecycle := rfl
@[simp] theorem Part.placeTag_identity (s : Part) (c : Client) (j : TagJob) : (s.placeTag c j).identity = s.identity := rfl
@[simp] theorem Part.placeTag_lifeChanges (s : Part) (c : Client) (j : TagJob) : (s.placeTag c j).lifeChanges = s.lifeChanges := rfl
@[simp] theorem Part.placeTag_tamperCount (s : Part) (c : Client) (j : TagJob) : (s.placeTag c j).tamperCount = s.tamperCount := rfl
@[simp] theorem Part.placeTag_sealWindow (s : Part) (c : Client) (j : TagJob) : (s.placeTag c j).sealWindow = s.sealWindow := rfl
@[simp] theorem Part.placeTag_cover (s : Part) (c : Client) (j : TagJob) : (s.placeTag c j).cover = s.cover := rfl
@[simp] theorem Part.placeTag_debounce (s : Part) (c : Client) (j : TagJob) : (s.placeTag c j).debounce = s.debounce := rfl
@[simp] theorem Part.placeTag_store (s : Part) (c : Client) (j : TagJob) : (s.placeTag c j).store = s.store := rfl
@[simp] theorem Part.placeTag_draws (s : Part) (c : Client) (j : TagJob) : (s.placeTag c j).draws = s.draws := rfl

/-! ### `Part.modCommit` -/

@[simp] theorem Part.modCommit_phase (s : Part) (k : Nat) (f : Commit → Commit) : (s.modCommit k f).phase = s.phase := rfl
@[simp] theorem Part.modCommit_powerCause (s : Part) (k : Nat) (f : Commit → Commit) : (s.modCommit k f).powerCause = s.powerCause := rfl
@[simp] theorem Part.modCommit_supply (s : Part) (k : Nat) (f : Commit → Commit) : (s.modCommit k f).supply = s.supply := rfl
@[simp] theorem Part.modCommit_rstn (s : Part) (k : Nat) (f : Commit → Commit) : (s.modCommit k f).rstn = s.rstn := rfl
@[simp] theorem Part.modCommit_pfw (s : Part) (k : Nat) (f : Commit → Commit) : (s.modCommit k f).pfw = s.pfw := rfl
@[simp] theorem Part.modCommit_tamp (s : Part) (k : Nat) (f : Commit → Commit) : (s.modCommit k f).tamp = s.tamp := rfl
@[simp] theorem Part.modCommit_ms (s : Part) (k : Nat) (f : Commit → Commit) : (s.modCommit k f).ms = s.ms := rfl
@[simp] theorem Part.modCommit_sec (s : Part) (k : Nat) (f : Commit → Commit) : (s.modCommit k f).sec = s.sec := rfl
@[simp] theorem Part.modCommit_mp (s : Part) (k : Nat) (f : Commit → Commit) : (s.modCommit k f).mp = s.mp := rfl
@[simp] theorem Part.modCommit_np (s : Part) (k : Nat) (f : Commit → Commit) : (s.modCommit k f).np = s.np := rfl
@[simp] theorem Part.modCommit_mpAside (s : Part) (k : Nat) (f : Commit → Commit) : (s.modCommit k f).mpAside = s.mpAside := rfl
@[simp] theorem Part.modCommit_npAside (s : Part) (k : Nat) (f : Commit → Commit) : (s.modCommit k f).npAside = s.npAside := rfl
@[simp] theorem Part.modCommit_slots (s : Part) (k : Nat) (f : Commit → Commit) : (s.modCommit k f).slots = s.slots := rfl
@[simp] theorem Part.modCommit_windows (s : Part) (k : Nat) (f : Commit → Commit) : (s.modCommit k f).windows = s.windows := rfl
@[simp] theorem Part.modCommit_pages (s : Part) (k : Nat) (f : Commit → Commit) : (s.modCommit k f).pages = s.pages := rfl
@[simp] theorem Part.modCommit_cells (s : Part) (k : Nat) (f : Commit → Commit) : (s.modCommit k f).cells = s.cells := rfl
@[simp] theorem Part.modCommit_allocNext (s : Part) (k : Nat) (f : Commit → Commit) : (s.modCommit k f).allocNext = s.allocNext := rfl
@[simp] theorem Part.modCommit_facts (s : Part) (k : Nat) (f : Commit → Commit) : (s.modCommit k f).facts = s.facts := rfl
@[simp] theorem Part.modCommit_nextSeq (s : Part) (k : Nat) (f : Commit → Commit) : (s.modCommit k f).nextSeq = s.nextSeq := rfl
@[simp] theorem Part.modCommit_nextPageSeq (s : Part) (k : Nat) (f : Commit → Commit) : (s.modCommit k f).nextPageSeq = s.nextPageSeq := rfl
@[simp] theorem Part.modCommit_headStamped (s : Part) (k : Nat) (f : Commit → Commit) : (s.modCommit k f).headStamped = s.headStamped := rfl
@[simp] theorem Part.modCommit_reclaim (s : Part) (k : Nat) (f : Commit → Commit) : (s.modCommit k f).reclaim = s.reclaim := rfl
@[simp] theorem Part.modCommit_fullReclaims (s : Part) (k : Nat) (f : Commit → Commit) : (s.modCommit k f).fullReclaims = s.fullReclaims := rfl
@[simp] theorem Part.modCommit_mode (s : Part) (k : Nat) (f : Commit → Commit) : (s.modCommit k f).mode = s.mode := rfl
@[simp] theorem Part.modCommit_wear (s : Part) (k : Nat) (f : Commit → Commit) : (s.modCommit k f).wear = s.wear := rfl
@[simp] theorem Part.modCommit_jobs (s : Part) (k : Nat) (f : Commit → Commit) : (s.modCommit k f).jobs = s.jobs := rfl
@[simp] theorem Part.modCommit_nextAge (s : Part) (k : Nat) (f : Commit → Commit) : (s.modCommit k f).nextAge = s.nextAge := rfl
@[simp] theorem Part.modCommit_inFlight (s : Part) (k : Nat) (f : Commit → Commit) : (s.modCommit k f).inFlight = s.inFlight := rfl
@[simp] theorem Part.modCommit_receiver (s : Part) (k : Nat) (f : Commit → Commit) : (s.modCommit k f).receiver = s.receiver := rfl
@[simp] theorem Part.modCommit_te (s : Part) (k : Nat) (f : Commit → Commit) : (s.modCommit k f).te = s.te := rfl
@[simp] theorem Part.modCommit_lifecycle (s : Part) (k : Nat) (f : Commit → Commit) : (s.modCommit k f).lifecycle = s.lifecycle := rfl
@[simp] theorem Part.modCommit_identity (s : Part) (k : Nat) (f : Commit → Commit) : (s.modCommit k f).identity = s.identity := rfl
@[simp] theorem Part.modCommit_lifeChanges (s : Part) (k : Nat) (f : Commit → Commit) : (s.modCommit k f).lifeChanges = s.lifeChanges := rfl
@[simp] theorem Part.modCommit_tamperCount (s : Part) (k : Nat) (f : Commit → Commit) : (s.modCommit k f).tamperCount = s.tamperCount := rfl
@[simp] theorem Part.modCommit_sealWindow (s : Part) (k : Nat) (f : Commit → Commit) : (s.modCommit k f).sealWindow = s.sealWindow := rfl
@[simp] theorem Part.modCommit_cover (s : Part) (k : Nat) (f : Commit → Commit) : (s.modCommit k f).cover = s.cover := rfl
@[simp] theorem Part.modCommit_debounce (s : Part) (k : Nat) (f : Commit → Commit) : (s.modCommit k f).debounce = s.debounce := rfl
@[simp] theorem Part.modCommit_store (s : Part) (k : Nat) (f : Commit → Commit) : (s.modCommit k f).store = s.store := rfl
@[simp] theorem Part.modCommit_draws (s : Part) (k : Nat) (f : Commit → Commit) : (s.modCommit k f).draws = s.draws := rfl

/-! ### `Part.endCommit` -/

@[simp] theorem Part.endCommit_phase (s : Part) (k : Nat) : (s.endCommit k).phase = s.phase := rfl
@[simp] theorem Part.endCommit_powerCause (s : Part) (k : Nat) : (s.endCommit k).powerCause = s.powerCause := rfl
@[simp] theorem Part.endCommit_supply (s : Part) (k : Nat) : (s.endCommit k).supply = s.supply := rfl
@[simp] theorem Part.endCommit_rstn (s : Part) (k : Nat) : (s.endCommit k).rstn = s.rstn := rfl
@[simp] theorem Part.endCommit_pfw (s : Part) (k : Nat) : (s.endCommit k).pfw = s.pfw := rfl
@[simp] theorem Part.endCommit_tamp (s : Part) (k : Nat) : (s.endCommit k).tamp = s.tamp := rfl
@[simp] theorem Part.endCommit_ms (s : Part) (k : Nat) : (s.endCommit k).ms = s.ms := rfl
@[simp] theorem Part.endCommit_sec (s : Part) (k : Nat) : (s.endCommit k).sec = s.sec := rfl
@[simp] theorem Part.endCommit_mp (s : Part) (k : Nat) : (s.endCommit k).mp = s.mp := rfl
@[simp] theorem Part.endCommit_np (s : Part) (k : Nat) : (s.endCommit k).np = s.np := rfl
@[simp] theorem Part.endCommit_mpAside (s : Part) (k : Nat) : (s.endCommit k).mpAside = s.mpAside := rfl
@[simp] theorem Part.endCommit_npAside (s : Part) (k : Nat) : (s.endCommit k).npAside = s.npAside := rfl
@[simp] theorem Part.endCommit_slots (s : Part) (k : Nat) : (s.endCommit k).slots = s.slots := rfl
@[simp] theorem Part.endCommit_windows (s : Part) (k : Nat) : (s.endCommit k).windows = s.windows := rfl
@[simp] theorem Part.endCommit_pages (s : Part) (k : Nat) : (s.endCommit k).pages = s.pages := rfl
@[simp] theorem Part.endCommit_cells (s : Part) (k : Nat) : (s.endCommit k).cells = s.cells := rfl
@[simp] theorem Part.endCommit_allocNext (s : Part) (k : Nat) : (s.endCommit k).allocNext = s.allocNext := rfl
@[simp] theorem Part.endCommit_facts (s : Part) (k : Nat) : (s.endCommit k).facts = s.facts := rfl
@[simp] theorem Part.endCommit_nextSeq (s : Part) (k : Nat) : (s.endCommit k).nextSeq = s.nextSeq := rfl
@[simp] theorem Part.endCommit_nextPageSeq (s : Part) (k : Nat) : (s.endCommit k).nextPageSeq = s.nextPageSeq := rfl
@[simp] theorem Part.endCommit_headStamped (s : Part) (k : Nat) : (s.endCommit k).headStamped = s.headStamped := rfl
@[simp] theorem Part.endCommit_reclaim (s : Part) (k : Nat) : (s.endCommit k).reclaim = s.reclaim := rfl
@[simp] theorem Part.endCommit_fullReclaims (s : Part) (k : Nat) : (s.endCommit k).fullReclaims = s.fullReclaims := rfl
@[simp] theorem Part.endCommit_mode (s : Part) (k : Nat) : (s.endCommit k).mode = s.mode := rfl
@[simp] theorem Part.endCommit_wear (s : Part) (k : Nat) : (s.endCommit k).wear = s.wear := rfl
@[simp] theorem Part.endCommit_jobs (s : Part) (k : Nat) : (s.endCommit k).jobs = s.jobs := rfl
@[simp] theorem Part.endCommit_nextAge (s : Part) (k : Nat) : (s.endCommit k).nextAge = s.nextAge := rfl
@[simp] theorem Part.endCommit_inFlight (s : Part) (k : Nat) : (s.endCommit k).inFlight = s.inFlight := rfl
@[simp] theorem Part.endCommit_receiver (s : Part) (k : Nat) : (s.endCommit k).receiver = s.receiver := rfl
@[simp] theorem Part.endCommit_te (s : Part) (k : Nat) : (s.endCommit k).te = s.te := rfl
@[simp] theorem Part.endCommit_lifecycle (s : Part) (k : Nat) : (s.endCommit k).lifecycle = s.lifecycle := rfl
@[simp] theorem Part.endCommit_identity (s : Part) (k : Nat) : (s.endCommit k).identity = s.identity := rfl
@[simp] theorem Part.endCommit_lifeChanges (s : Part) (k : Nat) : (s.endCommit k).lifeChanges = s.lifeChanges := rfl
@[simp] theorem Part.endCommit_tamperCount (s : Part) (k : Nat) : (s.endCommit k).tamperCount = s.tamperCount := rfl
@[simp] theorem Part.endCommit_sealWindow (s : Part) (k : Nat) : (s.endCommit k).sealWindow = s.sealWindow := rfl
@[simp] theorem Part.endCommit_cover (s : Part) (k : Nat) : (s.endCommit k).cover = s.cover := rfl
@[simp] theorem Part.endCommit_debounce (s : Part) (k : Nat) : (s.endCommit k).debounce = s.debounce := rfl
@[simp] theorem Part.endCommit_store (s : Part) (k : Nat) : (s.endCommit k).store = s.store := rfl
@[simp] theorem Part.endCommit_draws (s : Part) (k : Nat) : (s.endCommit k).draws = s.draws := rfl

/-! ### `Part.setFact` -/

@[simp] theorem Part.setFact_phase (s : Part) (k : FactKey) (p : Fin 8) (i : Fin 31) (n : Nat) : (s.setFact k p i n).phase = s.phase := rfl
@[simp] theorem Part.setFact_powerCause (s : Part) (k : FactKey) (p : Fin 8) (i : Fin 31) (n : Nat) : (s.setFact k p i n).powerCause = s.powerCause := rfl
@[simp] theorem Part.setFact_supply (s : Part) (k : FactKey) (p : Fin 8) (i : Fin 31) (n : Nat) : (s.setFact k p i n).supply = s.supply := rfl
@[simp] theorem Part.setFact_rstn (s : Part) (k : FactKey) (p : Fin 8) (i : Fin 31) (n : Nat) : (s.setFact k p i n).rstn = s.rstn := rfl
@[simp] theorem Part.setFact_pfw (s : Part) (k : FactKey) (p : Fin 8) (i : Fin 31) (n : Nat) : (s.setFact k p i n).pfw = s.pfw := rfl
@[simp] theorem Part.setFact_tamp (s : Part) (k : FactKey) (p : Fin 8) (i : Fin 31) (n : Nat) : (s.setFact k p i n).tamp = s.tamp := rfl
@[simp] theorem Part.setFact_ms (s : Part) (k : FactKey) (p : Fin 8) (i : Fin 31) (n : Nat) : (s.setFact k p i n).ms = s.ms := rfl
@[simp] theorem Part.setFact_sec (s : Part) (k : FactKey) (p : Fin 8) (i : Fin 31) (n : Nat) : (s.setFact k p i n).sec = s.sec := rfl
@[simp] theorem Part.setFact_mp (s : Part) (k : FactKey) (p : Fin 8) (i : Fin 31) (n : Nat) : (s.setFact k p i n).mp = s.mp := rfl
@[simp] theorem Part.setFact_np (s : Part) (k : FactKey) (p : Fin 8) (i : Fin 31) (n : Nat) : (s.setFact k p i n).np = s.np := rfl
@[simp] theorem Part.setFact_mpAside (s : Part) (k : FactKey) (p : Fin 8) (i : Fin 31) (n : Nat) : (s.setFact k p i n).mpAside = s.mpAside := rfl
@[simp] theorem Part.setFact_npAside (s : Part) (k : FactKey) (p : Fin 8) (i : Fin 31) (n : Nat) : (s.setFact k p i n).npAside = s.npAside := rfl
@[simp] theorem Part.setFact_slots (s : Part) (k : FactKey) (p : Fin 8) (i : Fin 31) (n : Nat) : (s.setFact k p i n).slots = s.slots := rfl
@[simp] theorem Part.setFact_windows (s : Part) (k : FactKey) (p : Fin 8) (i : Fin 31) (n : Nat) : (s.setFact k p i n).windows = s.windows := rfl
@[simp] theorem Part.setFact_pages (s : Part) (k : FactKey) (p : Fin 8) (i : Fin 31) (n : Nat) : (s.setFact k p i n).pages = s.pages := rfl
@[simp] theorem Part.setFact_cells (s : Part) (k : FactKey) (p : Fin 8) (i : Fin 31) (n : Nat) : (s.setFact k p i n).cells = s.cells := rfl
@[simp] theorem Part.setFact_allocNext (s : Part) (k : FactKey) (p : Fin 8) (i : Fin 31) (n : Nat) : (s.setFact k p i n).allocNext = s.allocNext := rfl
@[simp] theorem Part.setFact_nextSeq (s : Part) (k : FactKey) (p : Fin 8) (i : Fin 31) (n : Nat) : (s.setFact k p i n).nextSeq = s.nextSeq := rfl
@[simp] theorem Part.setFact_nextPageSeq (s : Part) (k : FactKey) (p : Fin 8) (i : Fin 31) (n : Nat) : (s.setFact k p i n).nextPageSeq = s.nextPageSeq := rfl
@[simp] theorem Part.setFact_headStamped (s : Part) (k : FactKey) (p : Fin 8) (i : Fin 31) (n : Nat) : (s.setFact k p i n).headStamped = s.headStamped := rfl
@[simp] theorem Part.setFact_reclaim (s : Part) (k : FactKey) (p : Fin 8) (i : Fin 31) (n : Nat) : (s.setFact k p i n).reclaim = s.reclaim := rfl
@[simp] theorem Part.setFact_fullReclaims (s : Part) (k : FactKey) (p : Fin 8) (i : Fin 31) (n : Nat) : (s.setFact k p i n).fullReclaims = s.fullReclaims := rfl
@[simp] theorem Part.setFact_mode (s : Part) (k : FactKey) (p : Fin 8) (i : Fin 31) (n : Nat) : (s.setFact k p i n).mode = s.mode := rfl
@[simp] theorem Part.setFact_wear (s : Part) (k : FactKey) (p : Fin 8) (i : Fin 31) (n : Nat) : (s.setFact k p i n).wear = s.wear := rfl
@[simp] theorem Part.setFact_jobs (s : Part) (k : FactKey) (p : Fin 8) (i : Fin 31) (n : Nat) : (s.setFact k p i n).jobs = s.jobs := rfl
@[simp] theorem Part.setFact_nextAge (s : Part) (k : FactKey) (p : Fin 8) (i : Fin 31) (n : Nat) : (s.setFact k p i n).nextAge = s.nextAge := rfl
@[simp] theorem Part.setFact_inFlight (s : Part) (k : FactKey) (p : Fin 8) (i : Fin 31) (n : Nat) : (s.setFact k p i n).inFlight = s.inFlight := rfl
@[simp] theorem Part.setFact_commits (s : Part) (k : FactKey) (p : Fin 8) (i : Fin 31) (n : Nat) : (s.setFact k p i n).commits = s.commits := rfl
@[simp] theorem Part.setFact_receiver (s : Part) (k : FactKey) (p : Fin 8) (i : Fin 31) (n : Nat) : (s.setFact k p i n).receiver = s.receiver := rfl
@[simp] theorem Part.setFact_te (s : Part) (k : FactKey) (p : Fin 8) (i : Fin 31) (n : Nat) : (s.setFact k p i n).te = s.te := rfl
@[simp] theorem Part.setFact_lifecycle (s : Part) (k : FactKey) (p : Fin 8) (i : Fin 31) (n : Nat) : (s.setFact k p i n).lifecycle = s.lifecycle := rfl
@[simp] theorem Part.setFact_identity (s : Part) (k : FactKey) (p : Fin 8) (i : Fin 31) (n : Nat) : (s.setFact k p i n).identity = s.identity := rfl
@[simp] theorem Part.setFact_lifeChanges (s : Part) (k : FactKey) (p : Fin 8) (i : Fin 31) (n : Nat) : (s.setFact k p i n).lifeChanges = s.lifeChanges := rfl
@[simp] theorem Part.setFact_tamperCount (s : Part) (k : FactKey) (p : Fin 8) (i : Fin 31) (n : Nat) : (s.setFact k p i n).tamperCount = s.tamperCount := rfl
@[simp] theorem Part.setFact_sealWindow (s : Part) (k : FactKey) (p : Fin 8) (i : Fin 31) (n : Nat) : (s.setFact k p i n).sealWindow = s.sealWindow := rfl
@[simp] theorem Part.setFact_cover (s : Part) (k : FactKey) (p : Fin 8) (i : Fin 31) (n : Nat) : (s.setFact k p i n).cover = s.cover := rfl
@[simp] theorem Part.setFact_debounce (s : Part) (k : FactKey) (p : Fin 8) (i : Fin 31) (n : Nat) : (s.setFact k p i n).debounce = s.debounce := rfl
@[simp] theorem Part.setFact_store (s : Part) (k : FactKey) (p : Fin 8) (i : Fin 31) (n : Nat) : (s.setFact k p i n).store = s.store := rfl
@[simp] theorem Part.setFact_draws (s : Part) (k : FactKey) (p : Fin 8) (i : Fin 31) (n : Nat) : (s.setFact k p i n).draws = s.draws := rfl

/-! ### `Part.dropFacts` -/

@[simp] theorem Part.dropFacts_phase (s : Part) (p : Fin 8) : (s.dropFacts p).phase = s.phase := rfl
@[simp] theorem Part.dropFacts_powerCause (s : Part) (p : Fin 8) : (s.dropFacts p).powerCause = s.powerCause := rfl
@[simp] theorem Part.dropFacts_supply (s : Part) (p : Fin 8) : (s.dropFacts p).supply = s.supply := rfl
@[simp] theorem Part.dropFacts_rstn (s : Part) (p : Fin 8) : (s.dropFacts p).rstn = s.rstn := rfl
@[simp] theorem Part.dropFacts_pfw (s : Part) (p : Fin 8) : (s.dropFacts p).pfw = s.pfw := rfl
@[simp] theorem Part.dropFacts_tamp (s : Part) (p : Fin 8) : (s.dropFacts p).tamp = s.tamp := rfl
@[simp] theorem Part.dropFacts_ms (s : Part) (p : Fin 8) : (s.dropFacts p).ms = s.ms := rfl
@[simp] theorem Part.dropFacts_sec (s : Part) (p : Fin 8) : (s.dropFacts p).sec = s.sec := rfl
@[simp] theorem Part.dropFacts_mp (s : Part) (p : Fin 8) : (s.dropFacts p).mp = s.mp := rfl
@[simp] theorem Part.dropFacts_np (s : Part) (p : Fin 8) : (s.dropFacts p).np = s.np := rfl
@[simp] theorem Part.dropFacts_mpAside (s : Part) (p : Fin 8) : (s.dropFacts p).mpAside = s.mpAside := rfl
@[simp] theorem Part.dropFacts_npAside (s : Part) (p : Fin 8) : (s.dropFacts p).npAside = s.npAside := rfl
@[simp] theorem Part.dropFacts_slots (s : Part) (p : Fin 8) : (s.dropFacts p).slots = s.slots := rfl
@[simp] theorem Part.dropFacts_windows (s : Part) (p : Fin 8) : (s.dropFacts p).windows = s.windows := rfl
@[simp] theorem Part.dropFacts_pages (s : Part) (p : Fin 8) : (s.dropFacts p).pages = s.pages := rfl
@[simp] theorem Part.dropFacts_cells (s : Part) (p : Fin 8) : (s.dropFacts p).cells = s.cells := rfl
@[simp] theorem Part.dropFacts_allocNext (s : Part) (p : Fin 8) : (s.dropFacts p).allocNext = s.allocNext := rfl
@[simp] theorem Part.dropFacts_nextSeq (s : Part) (p : Fin 8) : (s.dropFacts p).nextSeq = s.nextSeq := rfl
@[simp] theorem Part.dropFacts_nextPageSeq (s : Part) (p : Fin 8) : (s.dropFacts p).nextPageSeq = s.nextPageSeq := rfl
@[simp] theorem Part.dropFacts_headStamped (s : Part) (p : Fin 8) : (s.dropFacts p).headStamped = s.headStamped := rfl
@[simp] theorem Part.dropFacts_reclaim (s : Part) (p : Fin 8) : (s.dropFacts p).reclaim = s.reclaim := rfl
@[simp] theorem Part.dropFacts_fullReclaims (s : Part) (p : Fin 8) : (s.dropFacts p).fullReclaims = s.fullReclaims := rfl
@[simp] theorem Part.dropFacts_mode (s : Part) (p : Fin 8) : (s.dropFacts p).mode = s.mode := rfl
@[simp] theorem Part.dropFacts_wear (s : Part) (p : Fin 8) : (s.dropFacts p).wear = s.wear := rfl
@[simp] theorem Part.dropFacts_jobs (s : Part) (p : Fin 8) : (s.dropFacts p).jobs = s.jobs := rfl
@[simp] theorem Part.dropFacts_nextAge (s : Part) (p : Fin 8) : (s.dropFacts p).nextAge = s.nextAge := rfl
@[simp] theorem Part.dropFacts_inFlight (s : Part) (p : Fin 8) : (s.dropFacts p).inFlight = s.inFlight := rfl
@[simp] theorem Part.dropFacts_commits (s : Part) (p : Fin 8) : (s.dropFacts p).commits = s.commits := rfl
@[simp] theorem Part.dropFacts_receiver (s : Part) (p : Fin 8) : (s.dropFacts p).receiver = s.receiver := rfl
@[simp] theorem Part.dropFacts_te (s : Part) (p : Fin 8) : (s.dropFacts p).te = s.te := rfl
@[simp] theorem Part.dropFacts_lifecycle (s : Part) (p : Fin 8) : (s.dropFacts p).lifecycle = s.lifecycle := rfl
@[simp] theorem Part.dropFacts_identity (s : Part) (p : Fin 8) : (s.dropFacts p).identity = s.identity := rfl
@[simp] theorem Part.dropFacts_lifeChanges (s : Part) (p : Fin 8) : (s.dropFacts p).lifeChanges = s.lifeChanges := rfl
@[simp] theorem Part.dropFacts_tamperCount (s : Part) (p : Fin 8) : (s.dropFacts p).tamperCount = s.tamperCount := rfl
@[simp] theorem Part.dropFacts_sealWindow (s : Part) (p : Fin 8) : (s.dropFacts p).sealWindow = s.sealWindow := rfl
@[simp] theorem Part.dropFacts_cover (s : Part) (p : Fin 8) : (s.dropFacts p).cover = s.cover := rfl
@[simp] theorem Part.dropFacts_debounce (s : Part) (p : Fin 8) : (s.dropFacts p).debounce = s.debounce := rfl
@[simp] theorem Part.dropFacts_store (s : Part) (p : Fin 8) : (s.dropFacts p).store = s.store := rfl
@[simp] theorem Part.dropFacts_draws (s : Part) (p : Fin 8) : (s.dropFacts p).draws = s.draws := rfl

/-! ### `Part.draw` -/

@[simp] theorem Part.draw_phase (s : Part) : (s.draw).phase = s.phase := rfl
@[simp] theorem Part.draw_powerCause (s : Part) : (s.draw).powerCause = s.powerCause := rfl
@[simp] theorem Part.draw_supply (s : Part) : (s.draw).supply = s.supply := rfl
@[simp] theorem Part.draw_rstn (s : Part) : (s.draw).rstn = s.rstn := rfl
@[simp] theorem Part.draw_pfw (s : Part) : (s.draw).pfw = s.pfw := rfl
@[simp] theorem Part.draw_tamp (s : Part) : (s.draw).tamp = s.tamp := rfl
@[simp] theorem Part.draw_ms (s : Part) : (s.draw).ms = s.ms := rfl
@[simp] theorem Part.draw_sec (s : Part) : (s.draw).sec = s.sec := rfl
@[simp] theorem Part.draw_mp (s : Part) : (s.draw).mp = s.mp := rfl
@[simp] theorem Part.draw_np (s : Part) : (s.draw).np = s.np := rfl
@[simp] theorem Part.draw_mpAside (s : Part) : (s.draw).mpAside = s.mpAside := rfl
@[simp] theorem Part.draw_npAside (s : Part) : (s.draw).npAside = s.npAside := rfl
@[simp] theorem Part.draw_slots (s : Part) : (s.draw).slots = s.slots := rfl
@[simp] theorem Part.draw_windows (s : Part) : (s.draw).windows = s.windows := rfl
@[simp] theorem Part.draw_pages (s : Part) : (s.draw).pages = s.pages := rfl
@[simp] theorem Part.draw_cells (s : Part) : (s.draw).cells = s.cells := rfl
@[simp] theorem Part.draw_allocNext (s : Part) : (s.draw).allocNext = s.allocNext := rfl
@[simp] theorem Part.draw_facts (s : Part) : (s.draw).facts = s.facts := rfl
@[simp] theorem Part.draw_nextSeq (s : Part) : (s.draw).nextSeq = s.nextSeq := rfl
@[simp] theorem Part.draw_nextPageSeq (s : Part) : (s.draw).nextPageSeq = s.nextPageSeq := rfl
@[simp] theorem Part.draw_headStamped (s : Part) : (s.draw).headStamped = s.headStamped := rfl
@[simp] theorem Part.draw_reclaim (s : Part) : (s.draw).reclaim = s.reclaim := rfl
@[simp] theorem Part.draw_fullReclaims (s : Part) : (s.draw).fullReclaims = s.fullReclaims := rfl
@[simp] theorem Part.draw_mode (s : Part) : (s.draw).mode = s.mode := rfl
@[simp] theorem Part.draw_wear (s : Part) : (s.draw).wear = s.wear := rfl
@[simp] theorem Part.draw_jobs (s : Part) : (s.draw).jobs = s.jobs := rfl
@[simp] theorem Part.draw_nextAge (s : Part) : (s.draw).nextAge = s.nextAge := rfl
@[simp] theorem Part.draw_inFlight (s : Part) : (s.draw).inFlight = s.inFlight := rfl
@[simp] theorem Part.draw_commits (s : Part) : (s.draw).commits = s.commits := rfl
@[simp] theorem Part.draw_receiver (s : Part) : (s.draw).receiver = s.receiver := rfl
@[simp] theorem Part.draw_te (s : Part) : (s.draw).te = s.te := rfl
@[simp] theorem Part.draw_lifecycle (s : Part) : (s.draw).lifecycle = s.lifecycle := rfl
@[simp] theorem Part.draw_identity (s : Part) : (s.draw).identity = s.identity := rfl
@[simp] theorem Part.draw_lifeChanges (s : Part) : (s.draw).lifeChanges = s.lifeChanges := rfl
@[simp] theorem Part.draw_tamperCount (s : Part) : (s.draw).tamperCount = s.tamperCount := rfl
@[simp] theorem Part.draw_sealWindow (s : Part) : (s.draw).sealWindow = s.sealWindow := rfl
@[simp] theorem Part.draw_cover (s : Part) : (s.draw).cover = s.cover := rfl
@[simp] theorem Part.draw_debounce (s : Part) : (s.draw).debounce = s.debounce := rfl
@[simp] theorem Part.draw_store (s : Part) : (s.draw).store = s.store := rfl

/-! ### Reading after writing -/

@[simp] theorem Part.port_setPort_self (s : Part) (p : Port) (x : PortState) : (s.setPort p x).port p = x := by cases p <;> rfl

@[simp] theorem Part.port_setPort_other (s : Part) (p : Port) (x : PortState) : (s.setPort p x).port p.other = s.port p.other := by
  cases p <;> rfl

@[simp] theorem Part.setPort_setPort (s : Part) (p : Port) (x y : PortState) : (s.setPort p x).setPort p y = s.setPort p y := by
  cases p <;> rfl

@[simp] theorem Part.setPort_port (s : Part) (p : Port) : s.setPort p (s.port p) = s := by cases p <;> rfl

@[simp] theorem Part.modPort_eq (s : Part) (p : Port) (f : PortState → PortState) : s.modPort p f = s.setPort p (f (s.port p)) := rfl

@[simp] theorem Part.slot_setSlot_self (s : Part) (i : Fin 16) (x : Slot) : (s.setSlot i x).slot i = x := by
  simp [Part.slot, Part.setSlot]

@[simp] theorem Part.slot_setSlot_other (s : Part) {i j : Fin 16} (h : i ≠ j) (x : Slot) : (s.setSlot i x).slot j = s.slot j := by
  simp [Part.slot, Part.setSlot, Fin.val_ne_of_ne h]

@[simp] theorem Part.modSlot_eq (s : Part) (i : Fin 16) (f : Slot → Slot) : s.modSlot i f = s.setSlot i (f (s.slot i)) := rfl

@[simp] theorem Part.page_modPage_self (s : Part) (p : Fin 8) (f : Page → Page) : (s.modPage p f).page p = f (s.page p) := by
  simp [Part.page, Part.modPage]

@[simp] theorem Part.page_modPage_other (s : Part) {p q : Fin 8} (h : p ≠ q) (f : Page → Page) :
    (s.modPage p f).page q = s.page q := by
  simp [Part.page, Part.modPage, Fin.val_ne_of_ne h]

@[simp] theorem Part.cell_setCell_self (s : Part) (c : Fin 48) (x : Cell) : (s.setCell c x).cell c = x := by
  simp [Part.cell, Part.setCell]

@[simp] theorem Part.cell_setCell_other (s : Part) {c d : Fin 48} (h : c ≠ d) (x : Cell) : (s.setCell c x).cell d = s.cell d := by
  simp [Part.cell, Part.setCell, Fin.val_ne_of_ne h]

@[simp] theorem Part.storeAt_eq (s : Part) (p : Fin 8) (i : Fin 31) (x : Item) :
    s.storeAt p i x = s.storePage p (fun g => { g with records := g.records.set i x }) := rfl

@[simp] theorem Part.stored_storePage_self (s : Part) (p : Fin 8) (f : StoredPage → StoredPage) :
    (s.storePage p f).store.pages[p] = f s.store.pages[p] := by
  simp [Part.storePage]

@[simp] theorem Part.stored_storeCell_self (s : Part) (c : Fin 48) (x : Item) : (s.storeCell c x).store.cells[c] = x := by
  simp [Part.storeCell]

/-- A record position other than the one written reads as before. -/
theorem Part.stored_storeAt_other (s : Part) {p q : Fin 8} {i j : Fin 31} (h : p ≠ q ∨ i ≠ j) (x : Item) :
    (s.storeAt p i x).store.pages[q].records[j] = s.store.pages[q].records[j] := by
  by_cases hp : p = q
  · subst hp
    have hij : i ≠ j := h.resolve_left (fun h => h rfl)
    simp [Part.storePage, Fin.val_ne_of_ne hij]
  · simp [Part.storePage, Fin.val_ne_of_ne hp]

/-! ### Reading in a port after an update elsewhere -/

@[simp] theorem Part.setSlot_port (s : Part) (i : Fin 16) (x : Slot) (q : Port) : (s.setSlot i x).port q = s.port q := by cases q <;> rfl
@[simp] theorem Part.modPage_port (s : Part) (p : Fin 8) (f : Page → Page) (q : Port) : (s.modPage p f).port q = s.port q := by cases q <;> rfl
@[simp] theorem Part.setCell_port (s : Part) (c : Fin 48) (x : Cell) (q : Port) : (s.setCell c x).port q = s.port q := by cases q <;> rfl
@[simp] theorem Part.storeCell_port (s : Part) (c : Fin 48) (x : Item) (q : Port) : (s.storeCell c x).port q = s.port q := by cases q <;> rfl
@[simp] theorem Part.storePage_port (s : Part) (p : Fin 8) (f : StoredPage → StoredPage) (q : Port) : (s.storePage p f).port q = s.port q := by cases q <;> rfl
@[simp] theorem Part.modWindow_port (s : Part) (i : Fin 16) (g : Nat) (f : Window → Window) (q : Port) : (s.modWindow i g f).port q = s.port q := by cases q <;> rfl
@[simp] theorem Part.place_port (s : Part) (id : JobId) (c : Nat) (r : Requester) (k : List (Nat × Nat)) (q : Port) : (s.place id c r k).port q = s.port q := by cases q <;> rfl
@[simp] theorem Part.unplace_port (s : Part) (id : JobId) (q : Port) : (s.unplace id).port q = s.port q := by cases q <;> rfl
@[simp] theorem Part.placeTag_port (s : Part) (c : Client) (j : TagJob) (q : Port) : (s.placeTag c j).port q = s.port q := by cases q <;> rfl
@[simp] theorem Part.modCommit_port (s : Part) (k : Nat) (f : Commit → Commit) (q : Port) : (s.modCommit k f).port q = s.port q := by cases q <;> rfl
@[simp] theorem Part.endCommit_port (s : Part) (k : Nat) (q : Port) : (s.endCommit k).port q = s.port q := by cases q <;> rfl
@[simp] theorem Part.setFact_port (s : Part) (k : FactKey) (p : Fin 8) (i : Fin 31) (n : Nat) (q : Port) : (s.setFact k p i n).port q = s.port q := by cases q <;> rfl
@[simp] theorem Part.dropFacts_port (s : Part) (p : Fin 8) (q : Port) : (s.dropFacts p).port q = s.port q := by cases q <;> rfl
@[simp] theorem Part.draw_port (s : Part) (q : Port) : (s.draw).port q = s.port q := by cases q <;> rfl
@[simp] theorem Part.setPort_slot (s : Part) (p : Port) (x : PortState) (t : Fin 16) : (s.setPort p x).slot t = s.slot t := by cases p <;> rfl
@[simp] theorem Part.modPage_slot (s : Part) (p : Fin 8) (f : Page → Page) (t : Fin 16) : (s.modPage p f).slot t = s.slot t := rfl
@[simp] theorem Part.setCell_slot (s : Part) (c : Fin 48) (x : Cell) (t : Fin 16) : (s.setCell c x).slot t = s.slot t := rfl
@[simp] theorem Part.storeCell_slot (s : Part) (c : Fin 48) (x : Item) (t : Fin 16) : (s.storeCell c x).slot t = s.slot t := rfl
@[simp] theorem Part.storePage_slot (s : Part) (p : Fin 8) (f : StoredPage → StoredPage) (t : Fin 16) : (s.storePage p f).slot t = s.slot t := rfl
@[simp] theorem Part.modWindow_slot (s : Part) (i : Fin 16) (g : Nat) (f : Window → Window) (t : Fin 16) : (s.modWindow i g f).slot t = s.slot t := rfl
@[simp] theorem Part.place_slot (s : Part) (id : JobId) (c : Nat) (r : Requester) (k : List (Nat × Nat)) (t : Fin 16) : (s.place id c r k).slot t = s.slot t := rfl
@[simp] theorem Part.unplace_slot (s : Part) (id : JobId) (t : Fin 16) : (s.unplace id).slot t = s.slot t := rfl
@[simp] theorem Part.placeTag_slot (s : Part) (c : Client) (j : TagJob) (t : Fin 16) : (s.placeTag c j).slot t = s.slot t := rfl
@[simp] theorem Part.modCommit_slot (s : Part) (k : Nat) (f : Commit → Commit) (t : Fin 16) : (s.modCommit k f).slot t = s.slot t := rfl
@[simp] theorem Part.endCommit_slot (s : Part) (k : Nat) (t : Fin 16) : (s.endCommit k).slot t = s.slot t := rfl
@[simp] theorem Part.setFact_slot (s : Part) (k : FactKey) (p : Fin 8) (i : Fin 31) (n : Nat) (t : Fin 16) : (s.setFact k p i n).slot t = s.slot t := rfl
@[simp] theorem Part.dropFacts_slot (s : Part) (p : Fin 8) (t : Fin 16) : (s.dropFacts p).slot t = s.slot t := rfl
@[simp] theorem Part.draw_slot (s : Part) (t : Fin 16) : (s.draw).slot t = s.slot t := rfl

end Sys2Proof.Machine
end

