-- ==== Sys2Proof/Laws/Frames.lean ====
section
/-! SUPPORT. What the shared operations never touch, said once for each of them: `Part.outer` (the store, the lines, the timebase, the job in
flight, the lifecycle, the applied slot states, the free-value count) and `Part.ring` (the journal's tables and the store mode). -/

namespace Sys2Proof.Machine

/-- What no reply, event, withdrawal, abort or ring operation touches. -/
structure Outer where
  phase : Phase
  powerCause : Bool
  lines : Bool × Bool × Bool × Bool
  ms : Count
  sec : Count
  nextSeq : Nat
  inFlight : Option InFlight
  lifecycle : Lifecycle
  identity : Option Ident
  tamperCount : Nat
  sealWindow : Option (Port × Count)
  cover : Cover
  debounce : Option Count
  store : Store
  draws : Nat
  applied : Fin 16 → Pers

/-- What no reply, event, withdrawal or abort touches of the journal's tables. -/
structure Ring where
  pages : Vector Page 8
  facts : List Fact
  nextPageSeq : Nat
  headStamped : Bool
  reclaim : Option (Fin 8)
  fullReclaims : Nat
  mode : StoreMode
  wear : Nat

/-- The outer part of a state. -/
def Part.outer (s : Part) : Outer :=
  { phase := s.phase, powerCause := s.powerCause, lines := (s.supply, s.rstn, s.pfw, s.tamp), ms := s.ms, sec := s.sec,
    nextSeq := s.nextSeq, inFlight := s.inFlight, lifecycle := s.lifecycle, identity := s.identity,
    tamperCount := s.tamperCount, sealWindow := s.sealWindow, cover := s.cover, debounce := s.debounce, store := s.store,
    draws := s.draws, applied := fun i => (s.slot i).applied }

/-- The journal's tables of a state. -/
def Part.ring (s : Part) : Ring :=
  { pages := s.pages, facts := s.facts, nextPageSeq := s.nextPageSeq, headStamped := s.headStamped, reclaim := s.reclaim,
    fullReclaims := s.fullReclaims, mode := s.mode, wear := s.wear }

/-- Both. -/
def Part.firm (s : Part) : Outer × Ring := (s.outer, s.ring)

theorem Part.outer_of_firm {s t : Part} (h : s.firm = t.firm) : s.outer = t.outer := congrArg Prod.fst h

theorem Part.ring_of_firm {s t : Part} (h : s.firm = t.firm) : s.ring = t.ring := congrArg Prod.snd h

/-- A fold of operations that keep a projection keeps it. -/
theorem foldl_keeps {α β γ : Type} (f : β → γ) (op : β → α → β) (h : ∀ s a, f (op s a) = f s) (l : List α) (s : β) :
    f (l.foldl op s) = f s := by
  induction l generalizing s with
  | nil => rfl
  | cons a l ih => rw [List.foldl_cons, ih, h]

/-! ### The named updates -/

@[simp] theorem Part.setPort_firm (s : Part) (p : Port) (x : PortState) : (s.setPort p x).firm = s.firm := by cases p <;> rfl

/-- A slot written with its applied state as it stood. -/
@[simp] theorem Part.setSlot_firm (s : Part) (i : Fin 16) (x : Slot) (h : x.applied = (s.slot i).applied) :
    (s.setSlot i x).firm = s.firm := by
  have : (fun j => ((s.setSlot i x).slot j).applied) = fun j => (s.slot j).applied := by
    funext j
    by_cases hj : i = j
    · subst hj; simp [h]
    · simp [hj]
  simp [Part.firm, Part.outer, Part.ring, this]

@[simp] theorem Part.modWindow_firm (s : Part) (i : Fin 16) (g : Nat) (f : Window → Window) : (s.modWindow i g f).firm = s.firm := rfl

@[simp] theorem Part.place_firm (s : Part) (id : JobId) (c : Nat) (r : Requester) (k : List (Nat × Nat)) :
    (s.place id c r k).firm = s.firm := rfl

@[simp] theorem Part.unplace_firm (s : Part) (id : JobId) : (s.unplace id).firm = s.firm := rfl

@[simp] theorem Part.setCell_firm (s : Part) (c : Fin 48) (x : Cell) : (s.setCell c x).firm = s.firm := rfl

@[simp] theorem Part.placeTag_firm (s : Part) (c : Client) (j : TagJob) : (s.placeTag c j).firm = s.firm := rfl

@[simp] theorem Part.modCommit_firm (s : Part) (k : Nat) (f : Commit → Commit) : (s.modCommit k f).firm = s.firm := rfl

@[simp] theorem Part.endCommit_firm (s : Part) (k : Nat) : (s.endCommit k).firm = s.firm := rfl

@[simp] theorem Part.allocate_firm (s : Part) (c : Fin 48) (i : Fin 16) (g : Nat) : (s.allocate c i g).firm = s.firm := rfl

@[simp] theorem Part.releaseCell_firm (s : Part) (c : Fin 48) (k : Nat) : (s.releaseCell c k).firm = s.firm := rfl

/-! ### Replies and events -/

@[simp] theorem Part.makeReady_firm (s : Part) (p : Port) (r : Reply) : (s.makeReady p r).firm = s.firm := by
  simp [Part.makeReady]

@[simp] theorem Part.answer_firm (s : Part) (w : Waiter) (c : Cmd) (r : Code) (l : List ReplyItem) :
    (s.answer w c r l).firm = s.firm := by
  unfold Part.answer; split <;> simp

@[simp] theorem Part.refuse_firm (s : Part) (w : Waiter) (c : Cmd) (r : Code) : (s.refuse w c r).firm = s.firm := by
  simp [Part.refuse]

@[simp] theorem Part.raise_firm (s : Part) (p : Port) (f : Events → Events) : (s.raise p f).firm = s.firm := by
  unfold Part.raise
  split
  · simp
  · cases p <;> rfl

@[simp] theorem Part.raiseBoth_firm (s : Part) (f : Events → Events) : (s.raiseBoth f).firm = s.firm := by simp [Part.raiseBoth]

@[simp] theorem Part.abortChain_firm (s : Part) (p : Port) (e : Bool) : (s.abortChain p e).firm = s.firm := by
  unfold Part.abortChain
  split
  · rfl
  · rfl
  · split
    · rfl
    · dsimp only
      split
      · rw [Part.raise_firm]; rfl
      · rfl

@[simp] theorem Part.abortChainsOn_firm (s : Part) (f : Fin 16 → Nat → Bool) : (s.abortChainsOn f).firm = s.firm := by
  unfold Part.abortChainsOn
  dsimp only
  split <;> split <;> simp

/-! ### The counter unit -/

@[simp] theorem Part.placeWanted_firm (s : Part) (i : Fin 16) (g : Nat) : (s.placeWanted i g).firm = s.firm := by
  unfold Part.placeWanted
  split
  · rfl
  · split <;> rfl

@[simp] theorem Part.wantTest_firm (s : Part) (i : Fin 16) (g : Nat) : (s.wantTest i g).firm = s.firm := by
  unfold Part.wantTest
  split
  · rfl
  · split
    · simp
    · rfl

@[simp] theorem Part.placeAllWanted_firm (s : Part) : s.placeAllWanted.firm = s.firm := by
  unfold Part.placeAllWanted
  refine foldl_keeps Part.firm _ (fun s i => ?_) _ _
  exact foldl_keeps Part.firm _ (fun s x => by simp) _ _

@[simp] theorem Part.refuseHeld_firm (s : Part) (h : Held) (r : Code) : (s.refuseHeld h r).firm = s.firm := by
  simp [Part.refuseHeld]

@[simp] theorem Part.refuseAllHeld_firm (s : Part) (hs : List Held) (r : Code) : (s.refuseAllHeld hs r).firm = s.firm :=
  foldl_keeps Part.firm _ (fun s h => by simp) _ _

@[simp] theorem Part.issueTo_firm (s : Part) (i : Fin 16) (g c : Nat) (h : Held) : (s.issueTo i g c h).firm = s.firm := by
  unfold Part.issueTo
  dsimp only
  split <;> simp

@[simp] theorem Part.tagRequest_firm (s : Part) (p : Port) (i : Fin 16) (g : Nat) (r : HeldRequest) :
    (s.tagRequest p i g r).firm = s.firm := by
  unfold Part.tagRequest
  dsimp only
  repeat' split
  all_goals simp

@[simp] theorem Part.serveHeld_firm (s : Part) (i : Fin 16) (g : Nat) (l : List Held) : (s.serveHeld i g l).firm = s.firm := by
  induction l generalizing s with
  | nil => rfl
  | cons h l ih =>
    unfold Part.serveHeld
    split
    · rfl
    · rw [ih]; split <;> simp

@[simp] theorem Part.grant_firm (s : Part) (i : Fin 16) (g c d : Nat) : (s.grant i g c d).firm = s.firm := by
  unfold Part.grant; split <;> simp

@[simp] theorem Part.abandon_firm (s : Part) (i : Fin 16) (g : Nat) : (s.abandon i g).firm = s.firm := by
  unfold Part.abandon; split <;> simp

@[simp] theorem Part.refuseQueuedHeld_firm (s : Part) : s.refuseQueuedHeld.firm = s.firm := by
  unfold Part.refuseQueuedHeld
  refine foldl_keeps Part.firm _ (fun s w => ?_) _ _
  unfold Part.refuseQueued; split <;> simp

@[simp] theorem Part.openWindow_firm (s : Part) (i : Fin 16) (g m : Nat) : (s.openWindow i g m).firm = s.firm := rfl

@[simp] theorem Part.discardWindow_firm (s : Part) (i : Fin 16) (g : Nat) : (s.discardWindow i g).firm = s.firm := by
  unfold Part.discardWindow
  split
  · rfl
  · dsimp only
    rw [Part.refuseAllHeld_firm]
    split <;> rfl

@[simp] theorem Part.zeroizeWindows_firm (s : Part) (i : Fin 16) : (s.zeroizeWindows i).firm = s.firm := by
  unfold Part.zeroizeWindows
  refine foldl_keeps Part.firm _ (fun s w => ?_) _ _
  unfold Part.zeroizeWindow
  dsimp only
  rw [Part.refuseAllHeld_firm]
  split <;> rfl

/-! ### The key store controller -/

@[simp] theorem Part.giveVerdict_firm (s : Part) (v : Code) : (s.giveVerdict v).firm = s.firm := by
  unfold Part.giveVerdict
  split
  · rfl
  · rw [Part.makeReady_firm]; rfl

@[simp] theorem Part.accept_firm (s : Part) (i : Fin 16) (c : Change) (k : Nat) (r : Requester) (l : List (Nat × Nat)) :
    (s.accept i c k r l).firm = s.firm := by
  simp [Part.accept]

@[simp] theorem Part.expiryTest_firm (s : Part) (i : Fin 16) : (s.expiryTest i).firm = s.firm := by
  unfold Part.expiryTest; dsimp only; split <;> simp

@[simp] theorem Part.stopCommit_firm (s : Part) (k : Nat) : (s.stopCommit k).firm = s.firm := by
  unfold Part.stopCommit
  split
  · rfl
  · dsimp only; split <;> rfl

@[simp] theorem Part.dropChange_firm (s : Part) (c : Change) (r : Code) : (s.dropChange c r).firm = s.firm := by
  unfold Part.dropChange
  dsimp only
  split <;> split <;> simp

theorem Part.withdrawLoop_firm (i : Fin 16) (sel : Change → Bool) (why : Why) (l : List Change) :
    ∀ (p : Pers) (b : Bool) (s : Part), (Part.withdrawLoop i sel why l p b s).1.firm = s.firm := by
  induction l with
  | nil => intro p b s; rfl
  | cons c l ih =>
    intro p b s
    unfold Part.withdrawLoop
    dsimp only
    generalize (if c.taken = true then none else if sel c = true then some (why.code c)
      else if b = true then s.recheck i p c else none) = code
    cases code with
    | none => exact ih _ _ _
    | some r => dsimp only; rw [ih, Part.dropChange_firm]

/-- What withdrawal does to the slot's own record leaves its applied state. -/
theorem Part.slot_applied_of_firm {s t : Part} (h : s.firm = t.firm) (i : Fin 16) : (s.slot i).applied = (t.slot i).applied :=
  congrFun (congrArg (fun x : Outer × Ring => x.1.applied) h) i

/-- When the SLOT job of a slot leaves at a withdrawal (R83, R86). -/
theorem Part.slotJobLeaves_iff (s : Part) (i : Fin 16) (why : Why) (left : List Change) :
    s.slotJobLeaves i why left = true ↔
      left.length < (s.slot i).awaiting.length ∧ (∀ c ∈ left, c.taken = true) ∧
        (left = [] ∨ why = whyPower ∨ ∃ j ∈ s.jobs, j.id = .slot i ∧ j.commits ≠ []) := by
  simp [Part.slotJobLeaves, and_assoc, or_assoc]

@[simp] theorem Part.withdraw_firm (s : Part) (i : Fin 16) (sel : Change → Bool) (why : Why) :
    (s.withdraw i sel why).firm = s.firm := by
  unfold Part.withdraw
  dsimp only
  split <;> split <;> simp [Part.withdrawLoop_firm]

@[simp] theorem Part.withdrawLife_firm (s : Part) (r : Code) : (s.withdrawLife r).firm = s.firm := by
  unfold Part.withdrawLife
  dsimp only
  rw [Part.unplace_firm]
  refine (foldl_keeps Part.firm _ (fun s c => by simp) _ _).trans rfl

@[simp] theorem Part.powerSweep_firm (s : Part) : s.powerSweep.firm = s.firm := by
  unfold Part.powerSweep
  dsimp only
  rw [Part.refuseQueuedHeld_firm, Part.withdrawLife_firm]
  rw [foldl_keeps Part.firm _ (fun s i => by simp), foldl_keeps Part.firm _ (fun s i => by simp)]

end Sys2Proof.Machine
end

