-- ==== Sys2Proof/Laws/Journal.lean ====
section
/-! SUPPORT. What the ring operations of the journal controller never touch (`Part.outer`, as the first half of `Part.firm`), and that they
only let the store mode fall (R70). -/

namespace Sys2Proof.Machine

/-! ### The store, the applied states and all else outside the ring -/

@[simp] theorem Part.modPage_outer (s : Part) (p : Fin 8) (f : Page → Page) : (s.modPage p f).firm.1 = s.firm.1 := rfl

@[simp] theorem Part.setFact_outer (s : Part) (k : FactKey) (p : Fin 8) (i : Fin 31) (n : Nat) :
    (s.setFact k p i n).firm.1 = s.firm.1 := rfl

@[simp] theorem Part.dropFacts_outer (s : Part) (p : Fin 8) : (s.dropFacts p).firm.1 = s.firm.1 := rfl

@[simp] theorem Part.unwritable_firm (s : Part) (j : Job) : (s.unwritable j).firm = s.firm := by
  unfold Part.unwritable
  dsimp only
  split
  · split <;> simp
  all_goals simp

/-- The fold of `failStore` over the record jobs. -/
theorem Part.unwritableAll_firm (l : List Job) (s : Part) :
    (l.foldl (fun (s : Part) j => if s.onList j.id then s.unwritable j else s) s).firm = s.firm :=
  foldl_keeps Part.firm _ (fun s j => by split <;> simp) _ _

@[simp] theorem Part.failStore_outer (s : Part) : s.failStore.firm.1 = s.firm.1 := by
  unfold Part.failStore
  dsimp only
  refine Eq.trans (b := (List.foldl _ _ _ : Part).firm.1) rfl ?_
  rw [Part.unwritableAll_firm, Part.raiseBoth_firm]
  rfl

@[simp] theorem Part.failStore_mode (s : Part) : s.failStore.mode = .failed := by
  unfold Part.failStore
  dsimp only
  refine Eq.trans (b := (List.foldl _ _ _ : Part).firm.2.mode) rfl ?_
  rw [Part.unwritableAll_firm, Part.raiseBoth_firm]
  rfl

@[simp] theorem Part.recount_outer (s : Part) : s.recount.firm.1 = s.firm.1 := by
  unfold Part.recount
  dsimp only
  split
  · split
    · rw [Part.failStore_outer]; rfl
    · rw [Part.raiseBoth_firm]; rfl
    · rw [Part.raiseBoth_firm]; rfl
  · rfl

@[simp] theorem Part.pageGone_outer (s : Part) (p : Fin 8) : (s.pageGone p).firm.1 = s.firm.1 := rfl

@[simp] theorem Part.foundBad_outer (s : Part) (p : Fin 8) (r : Bool) : (s.foundBad p r).firm.1 = s.firm.1 := by
  unfold Part.foundBad
  cases r
  · simp only [Bool.false_eq_true, if_false]; split <;> simp
  · simp only [if_true]; split <;> simp

@[simp] theorem Part.reclaimed_outer (s : Part) : s.reclaimed.firm.1 = s.firm.1 := by
  unfold Part.reclaimed
  dsimp only
  split
  · rfl
  · split
    · rw [Part.failStore_outer]; rfl
    · rfl

theorem Part.placeCarries_firm (p : Fin 8) (l : List (Fin 31)) (s : Part) :
    (l.foldl (fun (s : Part) i => s.place (.carry p i) 1 .journal []) s).firm = s.firm :=
  by
  refine foldl_keeps Part.firm _ (fun s i => ?_) _ _
  rfl

theorem Part.reclaimOldest_outer (n : Nat) : ∀ (s : Part) (b : Bool), (Part.reclaimOldest n s b).firm.1 = s.firm.1 := by
  induction n with
  | zero => intro s b; rfl
  | succ n ih =>
    intro s b
    unfold Part.reclaimOldest
    split
    · rfl
    · rename_i p _
      dsimp only
      generalize (if (b && !s.pageLive p) = true then [] else s.recordPositions p) = steps
      split
      · split
        · split
          · rw [Part.reclaimed_outer, Part.pageGone_outer, Part.placeCarries_firm]; rfl
          · rw [ih, Part.reclaimed_outer, Part.pageGone_outer, Part.placeCarries_firm]; rfl
        · rw [Part.placeCarries_firm]; rfl
      · rw [Part.place_firm, Part.place_firm, Part.placeCarries_firm]; rfl

@[simp] theorem Part.moveOn_outer (s : Part) : s.moveOn.firm.1 = s.firm.1 := by
  unfold Part.moveOn
  split
  · rfl
  · exact Part.reclaimOldest_outer _ _ _

@[simp] theorem Part.closeHead_outer (s : Part) : s.closeHead.firm.1 = s.firm.1 := by
  unfold Part.closeHead; split <;> rfl

@[simp] theorem Part.openHead_outer (s : Part) (p : Fin 8) : (s.openHead p).firm.1 = s.firm.1 := rfl

@[simp] theorem Part.nextSpare_outer (s : Part) : s.nextSpare.firm.1 = s.firm.1 := by
  unfold Part.nextSpare
  split
  · rfl
  · split
    · rfl
    · exact Part.reclaimOldest_outer _ _ _

@[simp] theorem Part.headSwitch_outer (s : Part) (p : Fin 8) : (s.headSwitch p).firm.1 = s.firm.1 := by simp [Part.headSwitch]

@[simp] theorem Part.headSwitchTest_outer (s : Part) : s.headSwitchTest.firm.1 = s.firm.1 := by
  unfold Part.headSwitchTest
  split
  · rfl
  · split <;> simp

@[simp] theorem Part.roomTest_outer (s : Part) : s.roomTest.firm.1 = s.firm.1 := by
  unfold Part.roomTest; split <;> simp

@[simp] theorem Part.ringTests_outer (s : Part) : s.ringTests.firm.1 = s.firm.1 := by simp [Part.ringTests]

@[simp] theorem Part.settleRing_outer (s : Part) : s.settleRing.firm.1 = s.firm.1 := by
  unfold Part.settleRing
  split
  · rfl
  · split
    · split
      · simp
      · exact Part.reclaimOldest_outer _ _ _
    · split <;> simp

@[simp] theorem Part.finishStep_outer (s : Part) : s.finishStep.firm.1 = s.firm.1 := by simp [Part.finishStep]

end Sys2Proof.Machine
end

