-- ==== Sys2Proof/Laws/Modes.lean ====
section
/-! SUPPORT. The store mode only falls under the ring operations (R70). -/

namespace Sys2Proof.Machine

theorem Part.mode_of_firm {s t : Part} (h : s.firm = t.firm) : s.mode = t.mode := congrArg (fun x : Outer × Ring => x.2.mode) h

theorem StoreMode.rank_le_failed (m : StoreMode) : m.rank ≤ StoreMode.failed.rank := by cases m <;> decide

theorem StoreMode.rank_le_of_below {m n : StoreMode} (h : m.below n = true) : n.rank ≤ m.rank := by
  cases m <;> cases n <;> first | decide | exact absurd h (by decide)

/-- An operation that keeps the journal's tables keeps the mode. -/
theorem Part.rank_of_firm {s t : Part} (h : t.firm = s.firm) : s.mode.rank ≤ t.mode.rank := by
  rw [Part.mode_of_firm h]

theorem Part.failStore_falls (s : Part) : s.mode.rank ≤ s.failStore.mode.rank := by
  rw [Part.failStore_mode]; exact StoreMode.rank_le_failed _

theorem Part.recount_falls (s : Part) : s.mode.rank ≤ s.recount.mode.rank := by
  unfold Part.recount
  dsimp only
  split
  · rename_i h
    split
    · exact Part.failStore_falls { s with wear := s.wearLevel }
    all_goals
      rw [Part.mode_of_firm (Part.raiseBoth_firm _ _)]
      exact StoreMode.rank_le_of_below h
  · exact le_rfl

theorem Part.foundBad_falls (s : Part) (p : Fin 8) (r : Bool) : s.mode.rank ≤ (s.foundBad p r).mode.rank := by
  unfold Part.foundBad
  dsimp only
  generalize hs : (if r = true then s.modPage p (fun x => { x with role := .retiring }) else s.pageGone p) = s1
  have h1 : s1.mode = s.mode := by rw [← hs]; cases r <;> rfl
  have h2 := Part.recount_falls s1
  rw [h1] at h2
  split
  · exact h2
  · exact h2

theorem Part.reclaimed_falls (s : Part) : s.mode.rank ≤ s.reclaimed.mode.rank := by
  unfold Part.reclaimed
  dsimp only
  split
  · exact le_rfl
  · split
    · rw [Part.failStore_mode]; exact StoreMode.rank_le_failed _
    · exact le_rfl

theorem Part.reclaimOldest_falls (n : Nat) : ∀ (s : Part) (b : Bool), s.mode.rank ≤ (Part.reclaimOldest n s b).mode.rank := by
  induction n with
  | zero => intro s b; exact le_rfl
  | succ n ih =>
    intro s b
    unfold Part.reclaimOldest
    split
    · exact le_rfl
    · rename_i p _
      dsimp only
      generalize (if (b && !s.pageLive p) = true then [] else s.recordPositions p) = steps
      generalize hs : steps.foldl (fun (s : Part) i => s.place (.carry p i) 1 .journal []) { s with reclaim := some p } = s1
      have h1 : s1.mode = s.mode := by
        rw [← hs, Part.mode_of_firm (Part.placeCarries_firm _ _ _)]
      have h2 : s.mode.rank ≤ (s1.pageGone p).reclaimed.mode.rank := by
        have := Part.reclaimed_falls (s1.pageGone p)
        rwa [show (s1.pageGone p).mode = s1.mode from rfl, h1] at this
      split
      · split
        · split
          · exact h2
          · exact h2.trans (ih _ _)
        · rw [h1]
      · exact le_of_eq (by rw [Part.place_mode, Part.place_mode, h1])

theorem Part.moveOn_falls (s : Part) : s.mode.rank ≤ s.moveOn.mode.rank := by
  unfold Part.moveOn
  split
  · exact le_rfl
  · exact Part.reclaimOldest_falls _ _ _

theorem Part.headSwitch_falls (s : Part) (p : Fin 8) : s.mode.rank ≤ (s.headSwitch p).mode.rank := by
  have h1 : ((s.closeHead).openHead p).mode = s.mode := by
    show s.closeHead.mode = s.mode
    unfold Part.closeHead; split <;> rfl
  unfold Part.headSwitch Part.nextSpare
  rw [← h1]
  split
  · exact le_rfl
  · split
    · exact le_rfl
    · exact Part.reclaimOldest_falls _ _ _

theorem Part.headSwitchTest_falls (s : Part) : s.mode.rank ≤ s.headSwitchTest.mode.rank := by
  unfold Part.headSwitchTest
  split
  · exact le_rfl
  · split
    · exact le_rfl
    · exact Part.headSwitch_falls _ _

theorem Part.roomTest_falls (s : Part) : s.mode.rank ≤ s.roomTest.mode.rank := by
  unfold Part.roomTest
  split
  · exact Part.failStore_falls s
  · exact le_rfl

theorem Part.ringTests_falls (s : Part) : s.mode.rank ≤ s.ringTests.mode.rank :=
  (Part.headSwitchTest_falls s).trans (Part.roomTest_falls _)

theorem Part.settleRing_falls (s : Part) : s.mode.rank ≤ s.settleRing.mode.rank := by
  unfold Part.settleRing
  split
  · exact le_rfl
  · split
    · split
      · exact Part.failStore_falls s
      · exact Part.reclaimOldest_falls _ _ _
    · split
      · exact le_rfl
      · exact Part.headSwitch_falls _ _

theorem Part.finishStep_falls (s : Part) : s.mode.rank ≤ s.finishStep.mode.rank := by
  unfold Part.finishStep
  rw [Part.mode_of_firm (Part.placeAllWanted_firm _)]
  exact Part.settleRing_falls s

end Sys2Proof.Machine
end

