-- ==== Sys2Proof/Laws/Engine.lean ====
section
/-! SUPPORT. What taking and ending a job of the program engine, applying a record and a tamper event touch outside the ring, and that they
let the store mode only fall; the changes of a record one by one, and when one of them sets FORCED (R139, R140). -/

namespace Sys2Proof.Machine

/-! ### Applying records (R16, R162) and the tamper event (R169) -/

@[simp] theorem Part.tamperEnvelope_firm (s : Part) (i : Fin 16) : (s.tamperEnvelope i).firm = s.firm := by
  unfold Part.tamperEnvelope
  split
  · rfl
  · split
    · dsimp only; rw [Part.giveVerdict_firm]; rfl
    · rfl

@[simp] theorem Part.zeroizeSlot_firm (s : Part) (i : Fin 16) : (s.zeroizeSlot i).firm = s.firm := by simp [Part.zeroizeSlot]

theorem Part.tamperSlot_firm (acc : Part × Word) (i : Fin 16) : (Part.tamperSlot acc i).1.firm = acc.1.firm := by
  unfold Part.tamperSlot
  dsimp only
  split
  · rfl
  · split
    · simp
    · split
      · split <;> simp
      · rfl

theorem Part.tamperSlots_firm (l : List (Fin 16)) (acc : Part × Word) : (l.foldl Part.tamperSlot acc).1.firm = acc.1.firm :=
  foldl_keeps (fun x : Part × Word => x.1.firm) _ (fun a i => Part.tamperSlot_firm a i) l acc

/-- A tamper event outside ports, slots, lists and windows (R169): the cover, the debounce and the count. -/
theorem Part.tamper_firm (s : Part) :
    s.tamper.firm = ({ s.firm.1 with cover := .opened, debounce := none, tamperCount := nextTamper s.tamperCount }, s.firm.2) := by
  unfold Part.tamper
  dsimp only
  rw [Part.raiseBoth_firm, Part.tamperSlots_firm]
  split <;> rfl

@[simp] theorem Part.endCommits_firm (s : Part) (l : List Change) : (s.endCommits l).firm = s.firm := by
  unfold Part.endCommits
  refine foldl_keeps Part.firm _ (fun s c => ?_) _ _
  split <;> simp

@[simp] theorem foldAll_nil (p : Pers) : foldAll p [] = p := rfl

@[simp] theorem foldAll_cons (p : Pers) (c : Change) (l : List Change) : foldAll p (c :: l) = foldAll (p.fold c.kind) l := rfl

/-- A record's changes, taken apart at any place. -/
theorem foldSteps_append (p : Pers) (a b : List Change) : foldSteps p (a ++ b) = foldSteps p a ++ foldSteps (foldAll p a) b := by
  induction a generalizing p with
  | nil => rfl
  | cons c a ih => simp [foldSteps, ih]

/-- A step of a record is a change with the slot as the changes before it have brought it, and as it leaves it. -/
theorem mem_foldSteps (p : Pers) (l : List Change) (x : Change × Pers × Pers) :
    x ∈ foldSteps p l ↔
      ∃ before c after, l = before ++ c :: after ∧ x = (c, foldAll p before, (foldAll p before).fold c.kind) := by
  constructor
  · induction l generalizing p with
    | nil => simp [foldSteps]
    | cons c l ih =>
      rintro (_ | ⟨_, h⟩)
      · exact ⟨[], c, l, rfl, rfl⟩
      · obtain ⟨a, d, b, rfl, rfl⟩ := ih _ h
        exact ⟨c :: a, d, b, rfl, rfl⟩
  · rintro ⟨a, c, b, rfl, rfl⟩
    simp [foldSteps_append, foldSteps]

/-- A grace expiry moves the view that names OUTGOING while the slot holds one, and no other (R139). -/
theorem Pers.expiry_moves (x : Pers) (p : Port) :
    (x.view p = some .outgoing ∧ (x.fold .expiry).view p = some .current) ↔ (x.view p = some .outgoing ∧ x.outgoing ≠ none) := by
  rw [show x.fold .expiry = x.expire from rfl, Pers.expire]
  split
  · simp_all
  · refine and_congr_right fun h => ?_
    cases p <;> simp_all [Pers.view, viewAhead]

/-- FORCED is set for a port when a grace expiry of the record finds its view naming OUTGOING, whatever stands behind it (R140, log entry
50). -/
theorem forcedBy_iff (p : Port) (x : Pers) (l : List Change) :
    forcedBy p (foldSteps x l) = true ↔
      ∃ before c after, l = before ++ c :: after ∧ c.kind = .expiry ∧
        (foldAll x before).view p = some .outgoing ∧ (foldAll x before).outgoing ≠ none := by
  unfold forcedBy
  simp only [List.any_eq_true, Bool.and_eq_true, decide_eq_true_eq, beq_iff_eq, mem_foldSteps]
  constructor
  · rintro ⟨_, ⟨a, c, b, rfl, rfl⟩, ⟨hk, hv⟩, hw⟩
    dsimp only at hk hv hw
    rw [hk] at hw
    exact ⟨a, c, b, rfl, hk, (Pers.expiry_moves _ p).1 ⟨hv, hw⟩⟩
  · rintro ⟨a, c, b, rfl, hk, h⟩
    obtain ⟨hv, hw⟩ := (Pers.expiry_moves _ p).2 h
    exact ⟨_, ⟨a, c, b, rfl, rfl⟩, ⟨hk, hv⟩, by rw [hk]; exact hw⟩

@[simp] theorem Part.replyTo_firm (s : Part) (i : Fin 16) (st : Change × Pers × Pers) : (s.replyTo i st).firm = s.firm := by
  unfold Part.replyTo
  dsimp only
  split
  · rfl
  · simp
  · split <;> simp

@[simp] theorem Part.releaseGens_firm (s : Part) (i : Fin 16) (l : List Gen) (c : Nat) : (s.releaseGens i l c).firm = s.firm := by
  unfold Part.releaseGens
  dsimp only
  rw [foldl_keeps Part.firm _ (fun s g => by simp), foldl_keeps Part.firm _ (fun s g => by simp)]

@[simp] theorem Part.applyWindows_firm (s : Part) (i : Fin 16) (a b : Pers) : (s.applyWindows i a b).firm = s.firm := by
  unfold Part.applyWindows
  dsimp only
  have h : ((List.map Window.gen (s.windows.filter
      (fun w => decide (w.slot = i) && !(b.gens.map Gen.num).contains w.gen))).foldl
      (fun s g => s.discardWindow i g) s).firm = s.firm := foldl_keeps Part.firm _ (fun s g => by simp) _ _
  split
  · exact h
  · split
    · exact h
    · rw [foldl_keeps Part.firm _ (fun s g => ?_), h]
      split <;> split <;> simp

/-- A verified SLOT record outside ports, lists, cells and windows (R16): the slot's applied state. -/
theorem Part.applySlot_firm (s : Part) (i : Fin 16) (new : Pers) :
    (s.applySlot i new).firm = ({ s.firm.1 with applied := Function.update s.firm.1.applied i new }, s.firm.2) := by
  have hset : (s.setSlot i ((s.slot i).applied' new)).firm =
      ({ s.firm.1 with applied := Function.update s.firm.1.applied i new }, s.firm.2) := by
    have : (fun j => ((s.setSlot i ((s.slot i).applied' new)).slot j).applied) =
        Function.update (fun j => (s.slot j).applied) i new := by
      funext j
      by_cases hj : i = j
      · subst hj; simp [Slot.applied']
      · rw [Part.slot_setSlot_other s hj, Function.update_of_ne (Ne.symm hj)]
    simp [Part.firm, Part.outer, Part.ring, this]
  rw [← hset]
  unfold Part.applySlot
  dsimp only
  split
  · split
    · split
      · simp [foldl_keeps Part.firm, apply_ite Part.firm]
      · simp [foldl_keeps Part.firm, apply_ite Part.firm]
    · simp [foldl_keeps Part.firm, apply_ite Part.firm]
  · split
    · split
      · simp [foldl_keeps Part.firm, apply_ite Part.firm]
      · simp [foldl_keeps Part.firm, apply_ite Part.firm]
    · simp [foldl_keeps Part.firm, apply_ite Part.firm]

@[simp] theorem Part.replyLife_firm (s : Part) (c : LifeChange) : (s.replyLife c).firm = s.firm := by
  unfold Part.replyLife; split <;> simp

/-- A verified LIFE record outside the ports and its own list (R162): the lifecycle and the identity. -/
theorem Part.applyLife_firm (s : Part) (l : Lifecycle) (id : Option Ident) :
    (s.applyLife l id).firm = ({ s.firm.1 with lifecycle := l, identity := id }, s.firm.2) := by
  unfold Part.applyLife
  dsimp only
  rw [foldl_keeps Part.firm _ (fun s c => by simp)]
  rfl

/-! ### Taking and ending a job (R59, R77 to R79) -/

/-- A change of the job in flight, of the next record sequence number and of the free-value count, with a store mode that has at most
fallen. -/
def Part.Takes (s t : Part) : Prop :=
  (∃ n f d, t.firm.1 = { s.firm.1 with nextSeq := n, inFlight := f, draws := d }) ∧ s.mode.rank ≤ t.mode.rank

theorem Part.Takes.trans {s t u : Part} (h : s.Takes t) (k : t.Takes u) : s.Takes u := by
  obtain ⟨⟨n, f, d, h1⟩, h2⟩ := h
  obtain ⟨⟨m, g, e, k1⟩, k2⟩ := k
  exact ⟨⟨m, g, e, by rw [k1, h1]⟩, h2.trans k2⟩

theorem Part.Takes.of_firm {s t : Part} (h : t.firm = s.firm) : s.Takes t :=
  ⟨⟨s.nextSeq, s.inFlight, s.draws, by rw [h]; rfl⟩, Part.rank_of_firm h⟩

theorem Part.Takes.of_outer {s t : Part} (h : t.firm.1 = s.firm.1) (k : s.mode.rank ≤ t.mode.rank) : s.Takes t :=
  ⟨⟨s.nextSeq, s.inFlight, s.draws, by rw [h]; rfl⟩, k⟩

theorem Part.Takes.refl (s : Part) : s.Takes s := Part.Takes.of_firm rfl

theorem Part.startRecord_takes (s : Part) (j : Job) (b : Body) : s.Takes (s.startRecord j b) := by
  unfold Part.startRecord
  split
  · exact Part.Takes.refl s
  · exact ⟨⟨_, _, s.draws, rfl⟩, le_rfl⟩

theorem Part.draw_takes (s : Part) : s.Takes s.draw := ⟨⟨s.nextSeq, s.inFlight, _, rfl⟩, le_rfl⟩

theorem Part.ringTests_takes (s : Part) : s.Takes s.ringTests := Part.Takes.of_outer (by simp) (Part.ringTests_falls s)

theorem Part.foundBad_takes (s : Part) (p : Fin 8) (r : Bool) : s.Takes (s.foundBad p r) :=
  Part.Takes.of_outer (by simp) (Part.foundBad_falls s p r)

theorem Part.reclaimed_takes (s : Part) : s.Takes s.reclaimed := Part.Takes.of_outer (by simp) (Part.reclaimed_falls s)

theorem Part.moveOn_takes (s : Part) : s.Takes s.moveOn := Part.Takes.of_outer (by simp) (Part.moveOn_falls s)

theorem Part.afterCarry_takes (s : Part) (p : Fin 8) : s.Takes (s.afterCarry p) := by
  unfold Part.afterCarry
  split
  · have h : s.Takes (s.pageGone p) := Part.Takes.of_outer rfl le_rfl
    exact (h.trans (Part.reclaimed_takes _)).trans (Part.moveOn_takes _)
  · exact Part.Takes.refl s

theorem Part.pageLost_takes (s : Part) (p : Fin 8) : s.Takes (s.pageLost p) := by
  unfold Part.pageLost
  have h : s.Takes ((s.unplace (.pageErase p)).unplace (.header p .wear)) := Part.Takes.of_firm rfl
  exact ((h.trans (Part.foundBad_takes _ _ _)).trans (Part.reclaimed_takes _)).trans (Part.moveOn_takes _)

theorem Part.prepare_takes (s : Part) (j : Job) : s.Takes (s.prepare j) := by
  unfold Part.prepare
  split
  · exact Part.Takes.of_firm (by simp)
  · split
    · split
      · split
        · exact Part.Takes.refl s
        · exact Part.Takes.trans (Part.Takes.of_firm (by simp)) (Part.startRecord_takes _ _ _)
      · split
        · exact Part.startRecord_takes _ _ _
        · exact Part.Takes.trans (Part.draw_takes s) (Part.startRecord_takes _ _ _)
    · exact Part.Takes.trans (Part.Takes.of_firm (by simp)) (Part.startRecord_takes _ _ _)
    · exact Part.Takes.trans (Part.Takes.of_firm rfl) (Part.startRecord_takes _ _ _)
    · exact Part.startRecord_takes _ _ _
    · exact Part.startRecord_takes _ _ _
    · split
      · split
        · exact ⟨⟨_, _, s.draws, rfl⟩, le_rfl⟩
        · exact Part.Takes.refl s
      · exact (Part.afterCarry_takes _ _).trans (Part.ringTests_takes _)
    · split
      · exact (Part.pageLost_takes _ _).trans (Part.ringTests_takes _)
      · exact ⟨⟨s.nextSeq, _, s.draws, rfl⟩, le_rfl⟩
    · exact ⟨⟨s.nextSeq, _, s.draws, rfl⟩, le_rfl⟩
    · split
      · exact Part.Takes.refl s
      · split
        · exact Part.Takes.refl s
        · exact ⟨⟨s.nextSeq, _, s.draws, rfl⟩, le_rfl⟩
    · exact ⟨⟨s.nextSeq, _, s.draws, rfl⟩, le_rfl⟩

/-- Taking a job changes nothing outside the journal's tables, lists, windows and slots' awaiting lists but the job in flight, the
next record sequence number and the free-value count. -/
theorem Part.takeJob_takes (s : Part) : s.Takes s.takeJob := by
  unfold Part.takeJob
  split
  · exact Part.Takes.refl s
  · have h : s.Takes s.roomTest := Part.Takes.of_outer (by simp) (Part.roomTest_falls s)
    dsimp only
    split
    · exact h
    · exact (h.trans (Part.Takes.of_firm (by rfl))).trans (Part.prepare_takes _ _)

/-- What an outcome may change outside the journal's tables: the store, the job in flight, the next record sequence number and the
free-value count; the store mode has at most fallen. -/
def Part.Ends (s t : Part) : Prop :=
  (∃ n f st d, t.firm.1 = { s.firm.1 with nextSeq := n, inFlight := f, store := st, draws := d }) ∧ s.mode.rank ≤ t.mode.rank

theorem Part.Ends.of_takes {s t : Part} (h : s.Takes t) : s.Ends t := by
  obtain ⟨⟨n, f, d, h1⟩, h2⟩ := h
  exact ⟨⟨n, f, s.store, d, h1⟩, h2⟩

theorem Part.Ends.trans {s t u : Part} (h : s.Ends t) (k : t.Ends u) : s.Ends u := by
  obtain ⟨⟨n, f, a, d, h1⟩, h2⟩ := h
  obtain ⟨⟨m, g, b, e, k1⟩, k2⟩ := k
  exact ⟨⟨m, g, b, e, by rw [k1, h1]⟩, h2.trans k2⟩

theorem Part.Ends.refl (s : Part) : s.Ends s := Part.Ends.of_takes (Part.Takes.refl s)

theorem Part.Ends.of_firm {s t : Part} (h : t.firm = s.firm) : s.Ends t := Part.Ends.of_takes (Part.Takes.of_firm h)

theorem Part.untake_firm (s : Part) (j : Job) : (s.untake j).firm = s.firm := by
  unfold Part.untake
  split
  · dsimp only
    split <;> simp
  · split <;> simp
  · rfl
  all_goals rfl

theorem Part.returnJob_ends (s : Part) (j : Job) : s.Ends (s.returnJob j) := by
  refine Part.Ends.of_firm ?_
  unfold Part.returnJob
  dsimp only
  split
  · exact Part.untake_firm s j
  · split
    · rw [Part.unwritable_firm, Part.untake_firm]
    · split
      · rw [Part.powerSweep_firm]; exact Part.untake_firm s j
      · exact Part.untake_firm s j

theorem Part.recordFailed_ends (s : Part) (f : InFlight) (p : Fin 8) (i : Fin 31) (again : Fin 31 → Nat → Work) :
    s.Ends (s.recordFailed f p i again) := by
  have h1 : s.Ends ((s.storeAt p i .broken).modPage p (fun x => { x with used := i.val + 1, failed := 1 })) :=
    ⟨⟨s.nextSeq, s.inFlight, _, s.draws, rfl⟩, le_rfl⟩
  have h2 : s.Ends { (s.storeAt p i .broken).modPage p (fun x => { x with used := i.val + 1, failed := 1 }) with inFlight := none } :=
    ⟨⟨s.nextSeq, none, _, s.draws, rfl⟩, le_rfl⟩
  unfold Part.recordFailed
  dsimp only
  split
  · exact ((h2.trans (Part.Ends.of_takes (Part.foundBad_takes _ _ _))).trans (Part.returnJob_ends _ _)).trans
      (Part.Ends.of_takes (Part.ringTests_takes _))
  · split
    · split
      · exact (h2.trans (Part.returnJob_ends _ _)).trans (Part.Ends.of_takes (Part.ringTests_takes _))
      · exact ⟨⟨_, _, _, s.draws, rfl⟩, le_rfl⟩
    · exact (h2.trans (Part.returnJob_ends _ _)).trans (Part.Ends.of_takes (Part.ringTests_takes _))

theorem Part.commitStep_firm (s : Part) (k n : Nat) : (s.commitStep k n).firm = s.firm := by
  unfold Part.commitStep
  split
  · rfl
  · dsimp only
    split
    · rw [Part.modSlot_eq]; refine (Part.setSlot_firm _ _ _ ?_).trans rfl; rfl
    · rfl

theorem Part.copied_ends (s : Part) (p : Fin 8) (i : Fin 31) (r : Record) : s.Ends (s.copied p i r) := by
  unfold Part.copied
  dsimp only
  split
  · exact ⟨⟨s.nextSeq, none, _, s.draws, rfl⟩, le_rfl⟩
  · exact ⟨⟨s.nextSeq, none, _, s.draws, rfl⟩, le_rfl⟩

theorem Part.endCarry_takes (s : Part) (j : Job) : s.Takes (s.endCarry j) := by
  unfold Part.endCarry
  split
  · exact Part.afterCarry_takes _ _
  all_goals exact Part.Takes.refl s

/-- The end of a carry-forward copy (R62). -/
theorem Part.carryDone_ends (s : Part) (ok : Bool) : s.Ends (s.carryDone ok) := by
  unfold Part.carryDone
  split
  · split
    · exact ((Part.copied_ends _ _ _ _).trans (Part.Ends.of_takes (Part.endCarry_takes _ _))).trans
        (Part.Ends.of_takes (Part.ringTests_takes _))
    · exact Part.recordFailed_ends _ _ _ _ _
  · exact Part.Ends.refl s

theorem Part.becomeSpare_takes (s : Part) (p : Fin 8) : s.Takes (s.becomeSpare p) := by
  have h : s.Takes (s.modPage p (fun x => { x with role := .spare, seq := none, used := 0, failed := 0 })) :=
    Part.Takes.of_outer rfl le_rfl
  exact h.trans (Part.reclaimed_takes _)

theorem Part.storePage_ends (s : Part) (p : Fin 8) (f : StoredPage → StoredPage) : s.Ends (s.storePage p f) :=
  ⟨⟨s.nextSeq, s.inFlight, _, s.draws, rfl⟩, le_rfl⟩

theorem Part.storeCell_ends (s : Part) (c : Fin 48) (x : Item) : s.Ends (s.storeCell c x) :=
  ⟨⟨s.nextSeq, s.inFlight, _, s.draws, rfl⟩, le_rfl⟩

theorem Part.draw_ends (s : Part) : s.Ends s.draw := ⟨⟨s.nextSeq, s.inFlight, s.store, _, rfl⟩, le_rfl⟩

theorem Part.stampWear_ends (s : Part) (p : Fin 8) (w : Option Nat) (ok : Bool) : s.Ends (s.stampWear p w ok) := by
  unfold Part.stampWear
  split
  · exact Part.Ends.refl s
  · exact Part.storePage_ends _ _ _

theorem Part.stampSeq_ends (s : Part) (p : Fin 8) (n : Nat) (ok : Bool) : s.Ends (s.stampSeq p n ok) := by
  unfold Part.stampSeq
  split
  · exact (Part.storePage_ends s p _).trans ⟨⟨_, _, _, _, rfl⟩, le_rfl⟩
  · exact (Part.storePage_ends s p _).trans (Part.Ends.of_takes (Part.foundBad_takes _ _ _))

theorem Part.endHeader_ends (s : Part) (p : Fin 8) (w q : Option Nat) (a b : Bool) : s.Ends (s.endHeader p w q a b) := by
  unfold Part.endHeader
  split
  · split
    · exact Part.Ends.of_takes (Part.becomeSpare_takes _ _)
    · exact Part.Ends.of_takes (Part.pageLost_takes _ _)
  · split
    · exact Part.Ends.of_takes (Part.foundBad_takes _ _ _)
    · exact Part.stampSeq_ends _ _ _ _

/-- The job in flight has left. -/
theorem Part.noFlight_ends (s : Part) : s.Ends { s with inFlight := none } := ⟨⟨s.nextSeq, none, s.store, s.draws, rfl⟩, le_rfl⟩

/-- The end of a header program (R61, R63). -/
theorem Part.headerDone_ends (s : Part) (wearOk seqOk : Bool) : s.Ends (s.headerDone wearOk seqOk) := by
  unfold Part.headerDone
  split
  · exact (((Part.noFlight_ends s).trans (Part.stampWear_ends _ _ _ _)).trans (Part.endHeader_ends _ _ _ _ _ _)).trans
      (Part.Ends.of_takes (Part.ringTests_takes _))
  · exact Part.Ends.refl s

theorem Part.pageErased_ends (s : Part) (p : Fin 8) : s.Ends (s.pageErased p) := by
  unfold Part.pageErased
  exact ⟨⟨s.nextSeq, s.inFlight, (s.storePage p (fun _ => .erased)).store, s.draws, rfl⟩, le_rfl⟩

theorem Part.eraseFailed_ends (s : Part) (p : Fin 8) : s.Ends (s.eraseFailed p) :=
  ((Part.storePage_ends s p _).trans (Part.draw_ends _)).trans (Part.Ends.of_takes (Part.pageLost_takes _ _))

/-- The end of a page erase (R63). -/
theorem Part.pageEraseDone_ends (s : Part) (ok : Bool) : s.Ends (s.pageEraseDone ok) := by
  unfold Part.pageEraseDone
  split
  · refine Part.Ends.trans ?_ (Part.Ends.of_takes (Part.ringTests_takes _))
    split
    · exact (Part.noFlight_ends s).trans (Part.pageErased_ends _ _)
    · exact (Part.noFlight_ends s).trans (Part.eraseFailed_ends _ _)
  · exact Part.Ends.refl s

@[simp] theorem Part.rebindCommit_firm (s : Part) (m : Commit) (d : Fin 48) (k : Key) : (s.rebindCommit m d k).firm = s.firm := by
  have h : ((s.modCommit m.id (fun m => { m with cell := some d, key := some k, retried := true })).modSlot m.slot
      (fun x => { x with awaiting := x.awaiting.map (Change.rebind m.id d) })).firm = s.firm := by
    rw [Part.modSlot_eq]; refine (Part.setSlot_firm _ _ _ ?_).trans rfl; rfl
  unfold Part.rebindCommit
  dsimp only
  split
  · exact h
  · exact h

@[simp] theorem Part.giveUpCell_firm (s : Part) (m : Commit) : (s.giveUpCell m).firm = s.firm := by simp [Part.giveUpCell]

theorem Part.retryCell_firm (s : Part) (j : Job) (m : Commit) (k : Key) : (s.retryCell j m k).firm = s.firm := by
  unfold Part.retryCell
  dsimp only
  split
  · simp
  · split
    · simp
    · rename_i d _
      have h : ((s.allocate d m.slot m.gen).rebindCommit m d k).firm = s.firm := by simp
      split
      · rw [Part.powerSweep_firm]; exact h
      · exact h

theorem Part.cellVerified_ends (s : Part) (c : Fin 48) (k : KeyCell) (m : Option Commit) : s.Ends (s.cellVerified c k m) := by
  unfold Part.cellVerified
  dsimp only
  split
  · exact Part.storeCell_ends _ _ _
  · exact (Part.storeCell_ends _ _ _).trans (Part.Ends.of_firm (Part.commitStep_firm _ _ _))

theorem Part.cellFailed_ends (s : Part) (j : Job) (c : Fin 48) (k : Key) (m : Option Commit) : s.Ends (s.cellFailed j c k m) := by
  have h (x : Item) : s.Ends (((s.storeCell c x).draw).setCell c .bad) :=
    ((Part.storeCell_ends s c x).trans (Part.draw_ends _)).trans (Part.Ends.of_firm (by simp))
  unfold Part.cellFailed
  dsimp only
  split
  · exact h _
  · exact (h _).trans (Part.Ends.of_firm (Part.retryCell_firm _ _ _ _))

/-- The end of a cell program (R50, R51). -/
theorem Part.cellProgramDone_ends (s : Part) (ok : Bool) : s.Ends (s.cellProgramDone ok) := by
  unfold Part.cellProgramDone
  split
  · refine Part.Ends.trans ?_ (Part.Ends.of_takes (Part.ringTests_takes _))
    split
    · exact (Part.noFlight_ends s).trans (Part.cellVerified_ends _ _ _ _)
    · exact (Part.noFlight_ends s).trans (Part.cellFailed_ends _ _ _ _ _)
  · exact Part.Ends.refl s

/-- The end of a cell erase (R52). -/
theorem Part.cellEraseDone_ends (s : Part) (ok : Bool) : s.Ends (s.cellEraseDone ok) := by
  unfold Part.cellEraseDone
  split
  · dsimp only
    split
    · exact ⟨⟨s.nextSeq, none, _, s.draws, rfl⟩, le_rfl⟩
    · exact ⟨⟨s.nextSeq, none, s.store, s.draws, rfl⟩, le_rfl⟩
  · exact Part.Ends.refl s

theorem Part.commitSteps_firm (l : List (Nat × Nat)) (s : Part) :
    (l.foldl (fun (s : Part) x => s.commitStep x.1 2) s).firm = s.firm :=
  foldl_keeps Part.firm _ (fun s (x : Nat × Nat) => Part.commitStep_firm s x.1 2) _ _

/-- A verified record handed on keeps the journal's tables and the store (R82). -/
theorem Part.deliver_ring (s : Part) (j : Job) (b : Body) : (s.deliver j b).ring = s.ring ∧ (s.deliver j b).store = s.store := by
  have key : ∀ t : Part, t.firm = s.firm → t.ring = s.ring ∧ t.store = s.store := fun t h =>
    ⟨congrArg Prod.snd h, congrArg (fun x : Outer × Ring => x.1.store) h⟩
  unfold Part.deliver
  split
  · split
    · split
      · exact ⟨rfl, rfl⟩
      · split
        · exact key _ (by simp)
        · exact ⟨rfl, rfl⟩
    · exact key _ (Part.commitSteps_firm _ _)
  · rename_i i p
    have h := Part.applySlot_firm s i p
    exact ⟨congrArg Prod.snd h, congrArg (fun x : Outer × Ring => x.1.store) h⟩
  · rename_i l id
    have h := Part.applyLife_firm s l id
    exact ⟨congrArg Prod.snd h, congrArg (fun x : Outer × Ring => x.1.store) h⟩
  · exact ⟨rfl, rfl⟩
  · exact ⟨rfl, rfl⟩

/-- The store mode at most falls at the end of a record program (R59, R70). -/
theorem Part.recordDone_falls (s : Part) (ok : Bool) : s.mode.rank ≤ (s.recordDone ok).mode.rank := by
  unfold Part.recordDone
  split
  · rename_i j p i n b _
    split
    · have h := congrArg Ring.mode (Part.deliver_ring (s.recorded p i n b) j b).1
      have k : ((s.recorded p i n b).deliver j b).mode = s.mode := h
      exact k ▸ Part.ringTests_falls _
    · exact (Part.recordFailed_ends _ _ _ _ _).2
  · exact le_rfl

end Sys2Proof.Machine
end

