-- ==== Sys2Proof/Laws/Ports.lean ====
section
/-! SUPPORT. What the tag engine, the envelope receiver, the port controllers and the commands never touch: none of them touches the store,
the lines, the job in flight, the lifecycle, an applied slot state, or the journal's tables; SEAL alone moves the seal window. -/

namespace Sys2Proof.Machine

/-! ### The tag engine (chapter 8) -/

@[simp] theorem Part.startTag_firm (s : Part) (c : Client) (j : TagJob) (k : Key) : (s.startTag c j k).firm = s.firm := rfl

@[simp] theorem Part.runTag_firm (s : Part) (c : Client) (j : TagJob) : (s.runTag c j).firm = s.firm := by
  unfold Part.runTag
  dsimp only
  split
  all_goals (repeat' split)
  all_goals first | rfl | simp

@[simp] theorem Part.takeTag_firm (s : Part) : s.takeTag.firm = s.firm := by
  unfold Part.takeTag
  split
  · rfl
  · split
    · rfl
    · rw [Part.runTag_firm]; rfl

@[simp] theorem Part.acceptRenew_firm (s : Part) (e : Envelope) (c : Fin 48) (k : Key) : (s.acceptRenew e c k).firm = s.firm := by
  unfold Part.acceptRenew; dsimp only; rw [Part.accept_firm]; rfl

@[simp] theorem Part.acceptCancel_firm (s : Part) (e : Envelope) : (s.acceptCancel e).firm = s.firm := by
  unfold Part.acceptCancel; dsimp only; rw [Part.accept_firm]; rfl

@[simp] theorem Part.remainingChecks_firm (s : Part) (e : Envelope) (k : Key) : (s.remainingChecks e k).firm = s.firm := by
  unfold Part.remainingChecks
  split
  · simp
  · split
    · split
      · simp
      · split
        · simp
        · split
          · simp
          · split
            · rw [Part.giveVerdict_firm]; rfl
            · rw [Part.acceptRenew_firm]; rfl
    · split
      · simp
      · split
        · simp
        · split <;> simp

@[simp] theorem Part.unwrapDone_firm (s : Part) (k : Key) (e : Envelope) : (s.unwrapDone k e).firm = s.firm := by
  unfold Part.unwrapDone; dsimp only; split <;> simp

@[simp] theorem Part.endAbort_firm (s : Part) (p : Port) (a : Abort) : (s.endAbort p a).firm = s.firm := by
  unfold Part.endAbort
  split
  · rfl
  · rfl
  · rw [Part.raise_firm]; rfl

@[simp] theorem Part.endTag_firm (s : Part) (r : TagRun) : (s.endTag r).firm = s.firm := by
  unfold Part.endTag
  dsimp only
  split
  · rw [Part.answer_firm]; rfl
  · rw [Part.answer_firm]; rfl
  · rw [Part.endAbort_firm, Part.answer_firm]; split <;> rfl
  · split
    · rw [Part.refuse_firm]; rfl
    · rw [Part.endAbort_firm, Part.answer_firm]; rfl
  · split
    · rw [Part.refuse_firm]; rfl
    · split <;> (rw [Part.answer_firm]; rfl)
  · split
    · rfl
    · rw [Part.unwrapDone_firm]; rfl

@[simp] theorem Part.doneTag_firm (s : Part) : s.doneTag.firm = s.firm := by
  unfold Part.doneTag; split <;> simp

/-! ### The port controllers (chapter 10) -/

theorem Part.condemnChanges_firm (s : Part) (p : Port) : (s.condemnChanges p).firm = s.firm :=
  foldl_keeps Part.firm _ (fun s i => by simp) _ _

@[simp] theorem Part.condemn_firm (s : Part) (p : Port) : (s.condemn p).firm = s.firm := by
  rw [← Part.condemnChanges_firm s p]
  unfold Part.condemn
  generalize s.condemnChanges p = t
  rfl

@[simp] theorem Part.forgetReply_firm (s : Part) (p : Port) (r : Reply) : (s.forgetReply p r).firm = s.firm := by
  unfold Part.forgetReply
  dsimp only
  have h := Part.setPort_firm s p { s.port p with job := .idle }
  split
  · exact h
  · exact h
  · exact h

@[simp] theorem Part.deliverReply_firm (s : Part) (p : Port) (r : Reply) : (s.deliverReply p r).firm = s.firm := by
  unfold Part.deliverReply
  dsimp only
  have h := Part.setPort_firm s p { s.port p with job := .idle }
  split
  · exact h
  · exact h
  · simp

@[simp] theorem Part.settle_firm (s : Part) (p : Port) (o : List Word) (n : Nat) (v : Bool) : (s.settle p o n v).1.firm = s.firm := by
  unfold Part.settle
  repeat' split
  all_goals simp

@[simp] theorem Part.frameError_firm (s : Part) (p : Port) : (s.frameError p).firm = s.firm := by simp [Part.frameError]

@[simp] theorem Part.closeTransfer_firm (s : Part) (p : Port) : (s.closeTransfer p).firm = s.firm := by simp [Part.closeTransfer]

@[simp] theorem Part.beginTransfer_firm (s : Part) (p : Port) : (s.beginTransfer p).firm = s.firm := by simp [Part.beginTransfer]

@[simp] theorem Part.restart_firm (s : Part) (p : Port) : (s.restart p).firm = s.firm := by
  unfold Part.restart
  dsimp only
  rw [Part.modPort_eq, Part.setPort_firm, Part.abortChain_firm]
  split
  · rfl
  · exact Part.forgetReply_firm _ _ _
  · exact (Part.setPort_firm _ _ _).trans (Part.condemn_firm _ _)

@[simp] theorem Part.restartTransfer_firm (s : Part) (p : Port) : (s.restartTransfer p).firm = s.firm := by
  unfold Part.restartTransfer; dsimp only; split <;> simp

/-- What a dispatched command does to a projection, a command's own effect does (R177). -/
theorem Part.dispatch_keeps {β : Type} (f : Part → β) (hp : ∀ s p x, f (Part.setPort s p x) = f s) (s : Part) (p : Port) (c : Cmd)
    (l b : Bool) (run : Part → Part) (hr : ∀ s, f (run s) = f s) : f (s.dispatch p c l b run) = f s := by
  unfold Part.dispatch
  dsimp only
  split
  · simp [hp]
  · split
    · simp [hp]
    · simp [hr, hp]

/-- The firm part of a whole frame is the one its command leaves. -/
theorem Part.frame_firm (s : Part) (p : Port) (c : Cmd) (body : List Word) (run : Part → Part)
    (h : ∀ s, (run s).firm = s.firm) : (s.frame p c body run).firm = s.firm := by
  unfold Part.frame
  dsimp only
  split
  · simp
  · split
    · simp
    · rw [Part.dispatch_keeps Part.firm (fun s p x => Part.setPort_firm s p x) _ _ _ _ _ _ h]; simp

/-! ### The commands -/

@[simp] theorem Part.statusRead_firm (s : Part) (p : Port) (b : List Word) : (s.statusRead p b).firm = s.firm := by
  unfold Part.statusRead; split <;> simp

@[simp] theorem Part.setMask_firm (s : Part) (p : Port) (b : List Word) : (s.setMask p b).firm = s.firm := by
  unfold Part.setMask; split <;> simp

@[simp] theorem Part.slotInfo_firm (s : Part) (p : Port) (b : List Word) : (s.slotInfo p b).firm = s.firm := by
  unfold Part.slotInfo; split <;> simp

@[simp] theorem Part.storeInfo_firm (s : Part) (p : Port) (b : List Word) : (s.storeInfo p b).firm = s.firm := by
  unfold Part.storeInfo; split <;> simp

@[simp] theorem Part.quickTag_firm (s : Part) (p : Port) (b : List Word) : (s.quickTag p b).firm = s.firm := by
  unfold Part.quickTag; split
  · simp
  · split <;> simp

@[simp] theorem Part.quickVerify_firm (s : Part) (p : Port) (b : List Word) : (s.quickVerify p b).firm = s.firm := by
  unfold Part.quickVerify; split
  · simp
  · split <;> simp

@[simp] theorem Part.chainOpen_firm (s : Part) (p : Port) (b : List Word) : (s.chainOpen p b).firm = s.firm := by
  unfold Part.chainOpen; split
  · simp
  · split
    · simp
    · split
      · simp
      · split <;> simp

@[simp] theorem Part.acceptStep_firm (s : Part) (p : Port) (j : TagJob) : (s.acceptStep p j).firm = s.firm := rfl

@[simp] theorem Part.chainData_firm (s : Part) (p : Port) (b : List Word) : (s.chainData p b).firm = s.firm := by
  unfold Part.chainData; split
  · simp
  · split
    · simp
    · dsimp only; split
      · simp
      · split <;> simp

@[simp] theorem Part.chainClose_firm (s : Part) (p : Port) (b : List Word) : (s.chainClose p b).firm = s.firm := by
  unfold Part.chainClose; split
  · simp
  · split
    · simp
    · split <;> simp

@[simp] theorem Part.chainDrop_firm (s : Part) (p : Port) (b : List Word) : (s.chainDrop p b).firm = s.firm := by
  unfold Part.chainDrop; split
  · simp
  · split
    · simp
    · rw [Part.answer_firm]; rfl

@[simp] theorem Part.envOpen_firm (s : Part) (b : List Word) : (s.envOpen b).firm = s.firm := by
  unfold Part.envOpen; split
  · simp
  · split
    · rw [Part.answer_firm]; rfl
    · simp

@[simp] theorem Part.envData_firm (s : Part) (b : List Word) : (s.envData b).firm = s.firm := by
  unfold Part.envData; split
  · simp
  · split
    · simp
    · split
      · rw [Part.answer_firm]; rfl
      · simp
    all_goals simp

@[simp] theorem Part.envDrop_firm (s : Part) (b : List Word) : (s.envDrop b).firm = s.firm := by
  unfold Part.envDrop; split
  · simp
  · split
    · simp
    · rw [Part.answer_firm]; rfl
    all_goals simp

@[simp] theorem Part.envClose_firm (s : Part) (b : List Word) : (s.envClose b).firm = s.firm := by
  unfold Part.envClose; split
  · simp
  · split
    · simp
    · dsimp only; split
      · rw [Part.giveVerdict_firm]; rfl
      · rfl
    all_goals simp

/-- Rights at dispatch keep what the command keeps. -/
theorem Part.networkOnly_firm (s : Part) (p : Port) (c : Cmd) (run : Part → Part) (h : ∀ s, (run s).firm = s.firm) :
    (s.networkOnly p c run).firm = s.firm := by
  unfold Part.networkOnly; split
  · simp
  · exact h s

@[simp] theorem Part.activate_firm (s : Part) (p : Port) (b : List Word) : (s.activate p b).firm = s.firm := by
  unfold Part.activate
  repeat' split
  all_goals simp

@[simp] theorem Part.adopt_firm (s : Part) (p : Port) (b : List Word) : (s.adopt p b).firm = s.firm := by
  unfold Part.adopt
  repeat' split
  all_goals simp

@[simp] theorem Part.acceptLife_firm (s : Part) (p : Port) (l : Lifecycle) (id : Option Ident) : (s.acceptLife p l id).firm = s.firm := rfl

@[simp] theorem Part.setIdentity_firm (s : Part) (p : Port) (b : List Word) : (s.setIdentity p b).firm = s.firm := by
  unfold Part.setIdentity
  repeat' split
  all_goals simp

@[simp] theorem Part.acceptLoad_firm (s : Part) (p : Port) (i : Fin 16) (a : Attrs) (k : Key) (c : Fin 48) (g : Nat) :
    (s.acceptLoad p i a k c g).firm = s.firm := by
  unfold Part.acceptLoad; dsimp only; rw [Part.accept_firm]; rfl

@[simp] theorem Part.loadPlain_firm (s : Part) (p : Port) (b : List Word) : (s.loadPlain p b).firm = s.firm := by
  unfold Part.loadPlain
  split
  · simp
  · split
    · simp
    · split
      · simp
      · split
        · simp
        · split
          · simp
          · dsimp only; split <;> simp

@[simp] theorem Part.unload_firm (s : Part) (p : Port) (b : List Word) : (s.unload p b).firm = s.firm := by
  unfold Part.unload
  repeat' split
  all_goals simp

/-- SEAL outside ports and lists (R167, R168): the seal window. -/
theorem Part.seal_firm (s : Part) (p : Port) (b : List Word) :
    ∃ w, (s.seal p b).firm = ({ s.firm.1 with sealWindow := w }, s.firm.2) := by
  have open_ : ∀ s : Part, (s.openSeal p).firm = ({ s.firm.1 with sealWindow := some (p, s.ms) }, s.firm.2) := by
    intro s; unfold Part.openSeal; rw [Part.answer_firm]; rfl
  unfold Part.seal
  split
  · exact ⟨s.sealWindow, by simp; rfl⟩
  · split
    · exact ⟨s.sealWindow, by simp; rfl⟩
    · split
      · exact ⟨_, open_ s⟩
      · split
        · exact ⟨_, open_ s⟩
        · refine ⟨none, ?_⟩
          unfold Part.secondSeal
          dsimp only
          repeat' split
          all_goals first | (rw [Part.refuse_firm]; rfl) | rfl

end Sys2Proof.Machine
end

