-- ==== Sys2Proof/Laws/Commands.lean ====
section
/-! SUPPORT. What a command's frame does at a port: taken, refused as busy, answered (R173, R176, R177); the words of an offer (R173); the
two orders of a PFW_RELEASED (R88). -/

namespace Sys2Proof.Machine

/-- Word 0 of an offer is its status word; the reply follows, and then zero words (R173). -/
@[simp] theorem Offer.word_zero (o : Offer) : o.word 0 = o.status := rfl

@[simp] theorem Offer.word_succ (o : Offer) (n : Nat) : o.word (n + 1) = o.reply.getD n 0 := rfl

theorem Offer.word_after {o : Offer} {n : Nat} (h : o.reply.length < n) : o.word n = 0 := by
  cases n with
  | zero => simp at h
  | succ n => simp [Offer.word, List.getElem?_eq_none_iff.mpr (Nat.le_of_lt_succ h)]

@[simp] theorem Offer.length_clockedOut (o : Offer) (n : Nat) : (o.clockedOut n).length = n := by simp [Offer.clockedOut]

theorem waiterOf_condemned (p : Port) : (waiterOf p).condemned = false := rfl

/-- A port with no ready reply has none to settle (R175). -/
theorem Part.settle_of_not_ready {s : Part} {p : Port} (h : (s.port p).job.isReady = false) (o : List Word) (n : Nat)
    (v : Bool) : s.settle p o n v = (s, false) := by
  unfold Part.settle
  cases hj : (s.port p).job with
  | idle => rfl
  | waiting c => rfl
  | ready r => simp [hj, PortJob.isReady] at h

@[simp] theorem Part.modPort_modPort (s : Part) (p : Port) (f g : PortState → PortState) :
    (s.modPort p f).modPort p g = s.modPort p (fun x => g (f x)) := by cases p <;> rfl

@[simp] theorem Part.port_modPort (s : Part) (p : Port) (f : PortState → PortState) : (s.modPort p f).port p = f (s.port p) := by
  cases p <;> rfl

@[simp] theorem Part.port_closeTransfer (s : Part) (p : Port) :
    (s.closeTransfer p).port p = { s.port p with offer := none } := by simp [Part.closeTransfer]

/-- A frame at a port that takes a command hands the command to its block, with the port waiting (R177). -/
theorem Part.frame_takes {s : Part} {p : Port} {c : Cmd} {body : List Word} (h : s.takes p) (hb : body.length ≤ maxBody)
    (hc : c ≠ .nop) (run : Part → Part) : s.frame p c body run = run (s.waitingOn p c) := by
  obtain ⟨hr, hj⟩ := h
  have hrun : s.running = true := by simp [Part.running, hr]
  have hset : ∀ o n v, (s.closeTransfer p).settle p o n v = (s.closeTransfer p, false) :=
    fun o n v => Part.settle_of_not_ready (by simp [hj, PortJob.isReady]) o n v
  simp only [Part.frame, hrun, hset, Part.dispatch, Part.offerNow, hj, PortJob.isWaiting, if_neg hc, Nat.not_lt.mpr hb,
    if_false, Bool.and_false, Bool.false_eq_true, Bool.true_eq_false]
  congr 1
  cases p <;> simp [Part.waitingOn, PortState.waitingOn, PortState.clearFlags, Part.modPort, Part.closeTransfer]

/-- A frame at a port whose command is in flight is refused as busy (R177). -/
theorem Part.frame_busy {s : Part} {p : Port} {c d : Cmd} {body : List Word} (hr : s.phase = .running)
    (hj : (s.port p).job = .waiting d) (hb : body.length ≤ maxBody) (hc : c ≠ .nop) (run : Part → Part) :
    s.frame p c body run =
      s.setPort p { s.port p with offer := none, ferr := false, busyref := true, lost := false } := by
  have hrun : s.running = true := by simp [Part.running, hr]
  have hset : ∀ o n v, (s.closeTransfer p).settle p o n v = (s.closeTransfer p, false) :=
    fun o n v => Part.settle_of_not_ready (by simp [hj, PortJob.isReady]) o n v
  simp only [Part.frame, hrun, hset, Part.dispatch, Part.offerNow, hj, PortJob.isWaiting, if_neg hc, Nat.not_lt.mpr hb,
    if_false, Bool.and_true, if_true, Bool.true_eq_false]
  cases p <;> simp only [Part.port] at hj <;> simp [PortState.clearFlags, Part.modPort, Part.closeTransfer, Part.setPort, Part.port, hj]

/-- A reply made at once by a port's waiting command (R177). -/
theorem Part.answer_waitingOn (s : Part) (p : Port) (c d : Cmd) (r : Code) (l : List ReplyItem) :
    (s.waitingOn p c).answer (waiterOf p) d r l = s.answered p (replyWords r d l) := by
  cases p <;> rfl

/-- A refusal made at once by a port's waiting command (R186). -/
theorem Part.refuse_waitingOn (s : Part) (p : Port) (c d : Cmd) (r : Code) :
    (s.waitingOn p c).refuse (waiterOf p) d r = s.answered p [pair r.byte d.code] := by
  cases p <;> rfl

theorem Part.port_waitingOn (s : Part) (p : Port) (c : Cmd) : (s.waitingOn p c).port p = (s.port p).waitingOn c := by
  simp [Part.waitingOn]

/-- The two orders of R88, whichever the free choice gives. -/
theorem Part.maybeTakeJob_cases (s : Part) : s.maybeTakeJob = s.draw ∨ s.maybeTakeJob = (s.draw).takeJob := by
  unfold Part.maybeTakeJob
  split
  · exact .inr rfl
  · exact .inl rfl

end Sys2Proof.Machine
end

