-- ==== Sys2Proof/Laws/PerInstr.lean ====
section
/-! SUPPORT. The family `BodyBound`: a well-formed command carries a body of at most 38 words (R176), one lemma per command. -/

namespace Sys2Proof.Laws

-- one lemma at a time: they are many and small, and together they would take a thread each
set_option Elab.async false

/-- A well-formed command's body, if it has one, fits a frame. -/
def BodyBound.Statement (i : Instr) : Prop := i.wf = true → ∀ b, i.body? = some b → b.length ≤ maxBody

theorem BodyBound.nop (p : Port) (body : List Word) : BodyBound.Statement (.nop p body) := by
  simp [BodyBound.Statement, Instr.wf, Instr.body?]

theorem BodyBound.statusRead (p : Port) (body : List Word) : BodyBound.Statement (.statusRead p body) := by
  simp [BodyBound.Statement, Instr.wf, Instr.body?]

theorem BodyBound.setMask (p : Port) (body : List Word) : BodyBound.Statement (.setMask p body) := by
  simp [BodyBound.Statement, Instr.wf, Instr.body?]

theorem BodyBound.slotInfo (p : Port) (body : List Word) : BodyBound.Statement (.slotInfo p body) := by
  simp [BodyBound.Statement, Instr.wf, Instr.body?]

theorem BodyBound.storeInfo (p : Port) (body : List Word) : BodyBound.Statement (.storeInfo p body) := by
  simp [BodyBound.Statement, Instr.wf, Instr.body?]

theorem BodyBound.quickTag (p : Port) (body : List Word) : BodyBound.Statement (.quickTag p body) := by
  simp [BodyBound.Statement, Instr.wf, Instr.body?]

theorem BodyBound.quickVerify (p : Port) (body : List Word) : BodyBound.Statement (.quickVerify p body) := by
  simp [BodyBound.Statement, Instr.wf, Instr.body?]

theorem BodyBound.chainOpen (p : Port) (body : List Word) : BodyBound.Statement (.chainOpen p body) := by
  simp [BodyBound.Statement, Instr.wf, Instr.body?]

theorem BodyBound.chainData (p : Port) (body : List Word) : BodyBound.Statement (.chainData p body) := by
  simp [BodyBound.Statement, Instr.wf, Instr.body?]

theorem BodyBound.chainClose (p : Port) (body : List Word) : BodyBound.Statement (.chainClose p body) := by
  simp [BodyBound.Statement, Instr.wf, Instr.body?]

theorem BodyBound.chainDrop (p : Port) (body : List Word) : BodyBound.Statement (.chainDrop p body) := by
  simp [BodyBound.Statement, Instr.wf, Instr.body?]

theorem BodyBound.envOpen (p : Port) (body : List Word) : BodyBound.Statement (.envOpen p body) := by
  simp [BodyBound.Statement, Instr.wf, Instr.body?]

theorem BodyBound.envData (p : Port) (body : List Word) : BodyBound.Statement (.envData p body) := by
  simp [BodyBound.Statement, Instr.wf, Instr.body?]

theorem BodyBound.envClose (p : Port) (body : List Word) : BodyBound.Statement (.envClose p body) := by
  simp [BodyBound.Statement, Instr.wf, Instr.body?]

theorem BodyBound.envDrop (p : Port) (body : List Word) : BodyBound.Statement (.envDrop p body) := by
  simp [BodyBound.Statement, Instr.wf, Instr.body?]

theorem BodyBound.activate (p : Port) (body : List Word) : BodyBound.Statement (.activate p body) := by
  simp [BodyBound.Statement, Instr.wf, Instr.body?]

theorem BodyBound.adopt (p : Port) (body : List Word) : BodyBound.Statement (.adopt p body) := by
  simp [BodyBound.Statement, Instr.wf, Instr.body?]

theorem BodyBound.setIdentity (p : Port) (body : List Word) : BodyBound.Statement (.setIdentity p body) := by
  simp [BodyBound.Statement, Instr.wf, Instr.body?]

theorem BodyBound.loadPlain (p : Port) (body : List Word) : BodyBound.Statement (.loadPlain p body) := by
  simp [BodyBound.Statement, Instr.wf, Instr.body?]

theorem BodyBound.unload (p : Port) (body : List Word) : BodyBound.Statement (.unload p body) := by
  simp [BodyBound.Statement, Instr.wf, Instr.body?]

theorem BodyBound.seal (p : Port) (body : List Word) : BodyBound.Statement (.seal p body) := by
  simp [BodyBound.Statement, Instr.wf, Instr.body?]

theorem BodyBound.selectAsserted (p : Port) : BodyBound.Statement (.selectAsserted p) := by
  simp [BodyBound.Statement, Instr.body?]

theorem BodyBound.transferJudged (p : Port) (words : List Word) : BodyBound.Statement (.transferJudged p words) := by
  simp [BodyBound.Statement, Instr.body?]

theorem BodyBound.portRestart (p : Port) : BodyBound.Statement (.portRestart p) := by
  simp [BodyBound.Statement, Instr.body?]

theorem BodyBound.powerOnReset (inRange : Bool) : BodyBound.Statement (.powerOnReset inRange) := by
  simp [BodyBound.Statement, Instr.body?]

theorem BodyBound.pinReset (high : Bool) : BodyBound.Statement (.pinReset high) := by
  simp [BodyBound.Statement, Instr.body?]

theorem BodyBound.startUp : BodyBound.Statement (.startUp) := by
  simp [BodyBound.Statement, Instr.body?]

theorem BodyBound.startUpTamperSample (stays : Bool) : BodyBound.Statement (.startUpTamperSample stays) := by
  simp [BodyBound.Statement, Instr.body?]

theorem BodyBound.leaveStarting : BodyBound.Statement (.leaveStarting) := by
  simp [BodyBound.Statement, Instr.body?]

theorem BodyBound.pfwAsserted : BodyBound.Statement (.pfwAsserted) := by
  simp [BodyBound.Statement, Instr.body?]

theorem BodyBound.pfwReleased : BodyBound.Statement (.pfwReleased) := by
  simp [BodyBound.Statement, Instr.body?]

theorem BodyBound.tampLineChange (active : Bool) : BodyBound.Statement (.tampLineChange active) := by
  simp [BodyBound.Statement, Instr.body?]

theorem BodyBound.tamperEvent (now : Count) : BodyBound.Statement (.tamperEvent now) := by
  simp [BodyBound.Statement, Instr.body?]

theorem BodyBound.coverClosed (now : Count) : BodyBound.Statement (.coverClosed now) := by
  simp [BodyBound.Statement, Instr.body?]

theorem BodyBound.graceCountdownTick : BodyBound.Statement (.graceCountdownTick) := by
  simp [BodyBound.Statement, Instr.body?]

theorem BodyBound.graceExpiry (slot : Fin 16) : BodyBound.Statement (.graceExpiry slot) := by
  simp [BodyBound.Statement, Instr.body?]

theorem BodyBound.chainInactivity (p : Port) (now : Count) : BodyBound.Statement (.chainInactivity p now) := by
  simp [BodyBound.Statement, Instr.body?]

theorem BodyBound.envFillTimeout (now : Count) : BodyBound.Statement (.envFillTimeout now) := by
  simp [BodyBound.Statement, Instr.body?]

theorem BodyBound.sealWindowExpiry (now : Count) : BodyBound.Statement (.sealWindowExpiry now) := by
  simp [BodyBound.Statement, Instr.body?]

theorem BodyBound.peTakeJob : BodyBound.Statement (.peTakeJob) := by
  simp [BodyBound.Statement, Instr.body?]

theorem BodyBound.recordProgramDone (ok : Bool) : BodyBound.Statement (.recordProgramDone ok) := by
  simp [BodyBound.Statement, Instr.body?]

theorem BodyBound.carryForwardDone (ok : Bool) : BodyBound.Statement (.carryForwardDone ok) := by
  simp [BodyBound.Statement, Instr.body?]

theorem BodyBound.headerProgramDone (wearOk : Bool) (seqOk : Bool) : BodyBound.Statement (.headerProgramDone wearOk seqOk) := by
  simp [BodyBound.Statement, Instr.body?]

theorem BodyBound.pageEraseDone (ok : Bool) : BodyBound.Statement (.pageEraseDone ok) := by
  simp [BodyBound.Statement, Instr.body?]

theorem BodyBound.cellProgramDone (ok : Bool) : BodyBound.Statement (.cellProgramDone ok) := by
  simp [BodyBound.Statement, Instr.body?]

theorem BodyBound.cellEraseDone (ok : Bool) : BodyBound.Statement (.cellEraseDone ok) := by
  simp [BodyBound.Statement, Instr.body?]

theorem BodyBound.teTakeJob : BodyBound.Statement (.teTakeJob) := by
  simp [BodyBound.Statement, Instr.body?]

theorem BodyBound.teJobDone : BodyBound.Statement (.teJobDone) := by
  simp [BodyBound.Statement, Instr.body?]

end Sys2Proof.Laws
end

