-- ==== Sys2Proof/Laws/Ready.lean ====
section
/-! SUPPORT. A frame at a READY port (R174, R175, R177): what settling the offered reply leaves, and LOST: no block reads or writes the flag,
so a command leaves what it would leave without the loss, with LOST shown. -/

namespace Sys2Proof.Machine

/-! ### What the flag leaves unchanged -/

section
variable (s : Part) (p q : Port)

@[simp] theorem Part.showLost_te : (s.showLost p).te = s.te := by cases p <;> rfl
@[simp] theorem Part.showLost_windows : (s.showLost p).windows = s.windows := by cases p <;> rfl
@[simp] theorem Part.showLost_receiver : (s.showLost p).receiver = s.receiver := by cases p <;> rfl
@[simp] theorem Part.showLost_mode : (s.showLost p).mode = s.mode := by cases p <;> rfl
@[simp] theorem Part.showLost_pfw : (s.showLost p).pfw = s.pfw := by cases p <;> rfl
@[simp] theorem Part.showLost_ms : (s.showLost p).ms = s.ms := by cases p <;> rfl
@[simp] theorem Part.showLost_lifecycle : (s.showLost p).lifecycle = s.lifecycle := by cases p <;> rfl
@[simp] theorem Part.showLost_identity : (s.showLost p).identity = s.identity := by cases p <;> rfl
@[simp] theorem Part.showLost_sealWindow : (s.showLost p).sealWindow = s.sealWindow := by cases p <;> rfl
@[simp] theorem Part.showLost_slot (i : Fin 16) : (s.showLost p).slot i = s.slot i := by cases p <;> rfl
@[simp] theorem Part.showLost_projected (i : Fin 16) : (s.showLost p).projected i = s.projected i := by cases p <;> rfl
@[simp] theorem Part.showLost_window (i : Fin 16) (g : Nat) : (s.showLost p).window i g = s.window i g := by cases p <;> rfl
@[simp] theorem Part.showLost_freeCell : (s.showLost p).freeCell = s.freeCell := by cases p <;> rfl
@[simp] theorem Part.showLost_projectedLife : (s.showLost p).projectedLife = s.projectedLife := by cases p <;> rfl
@[simp] theorem Part.showLost_projectedIdentity : (s.showLost p).projectedIdentity = s.projectedIdentity := by cases p <;> rfl
@[simp] theorem Part.showLost_checkUse (i n : Nat) : (s.showLost p).checkUse q i n = s.checkUse q i n := by cases p <;> rfl
@[simp] theorem Part.showLost_activateCheck (i : Fin 16) (g : Nat) :
    (s.showLost p).activateCheck q i g = s.activateCheck q i g := by cases p <;> rfl
@[simp] theorem Part.showLost_adoptCheck (i : Fin 16) (g : Nat) : (s.showLost p).adoptCheck q i g = s.adoptCheck q i g := by
  cases p <;> rfl
@[simp] theorem Part.showLost_firstChecks (b : List Byte) : (s.showLost p).firstChecks b = s.firstChecks b := by cases p <;> rfl
@[simp] theorem Part.showLost_sealReady : (s.showLost p).sealReady = s.sealReady := by cases p <;> rfl
@[simp] theorem Part.showLost_slotItems (i : Fin 16) : (s.showLost p).slotItems i = s.slotItems i := by cases p <;> rfl
@[simp] theorem Part.showLost_storeItems : (s.showLost p).storeItems = s.storeItems := by cases p <;> rfl
@[simp] theorem Part.showLost_statusItems : (s.showLost p).statusItems q = s.statusItems q := by cases p <;> cases q <;> rfl

/-! ### The shared operations -/

@[simp] theorem Part.showLost_answer (w : Waiter) (c : Cmd) (r : Code) (l : List ReplyItem) :
    (s.showLost p).answer w c r l = (s.answer w c r l).showLost p := by
  unfold Part.answer
  split
  · rfl
  · cases p <;> cases w.port <;> rfl

@[simp] theorem Part.showLost_refuse (w : Waiter) (c : Cmd) (r : Code) :
    (s.showLost p).refuse w c r = (s.refuse w c r).showLost p := Part.showLost_answer s p w c r []

@[simp] theorem Part.showLost_placeTag (c : Client) (j : TagJob) :
    (s.showLost p).placeTag c j = (s.placeTag c j).showLost p := by cases p <;> rfl

@[simp] theorem Part.showLost_accept (i : Fin 16) (c : Change) (k : Nat) (r : Requester) (l : List (Nat × Nat)) :
    (s.showLost p).accept i c k r l = (s.accept i c k r l).showLost p := by cases p <;> rfl

@[simp] theorem Part.showLost_modWindow (i : Fin 16) (g : Nat) (f : Window → Window) :
    (s.showLost p).modWindow i g f = (s.modWindow i g f).showLost p := by cases p <;> rfl

@[simp] theorem Part.showLost_place (i : JobId) (k : Nat) (r : Requester) (l : List (Nat × Nat)) :
    (s.showLost p).place i k r l = (s.place i k r l).showLost p := by cases p <;> rfl

@[simp] theorem Part.showLost_allocate (c : Fin 48) (i : Fin 16) (g : Nat) :
    (s.showLost p).allocate c i g = (s.allocate c i g).showLost p := by cases p <;> rfl

@[simp] theorem Part.showLost_setCell (c : Fin 48) (x : Cell) :
    (s.showLost p).setCell c x = (s.setCell c x).showLost p := by cases p <;> rfl

@[simp] theorem Part.showLost_giveVerdict (v : Code) : (s.showLost p).giveVerdict v = (s.giveVerdict v).showLost p := by
  unfold Part.giveVerdict
  simp only [Part.showLost_receiver]
  split <;> (cases p <;> rfl)

@[simp] theorem Part.showLost_placeWanted (i : Fin 16) (g : Nat) :
    (s.showLost p).placeWanted i g = (s.placeWanted i g).showLost p := by
  unfold Part.placeWanted
  simp only [Part.showLost_window, Part.showLost_pfw, Part.showLost_mode, Part.showLost_slot, Part.showLost_modWindow,
    Part.showLost_place]
  split
  · rfl
  · split <;> rfl

@[simp] theorem Part.showLost_wantTest (i : Fin 16) (g : Nat) :
    (s.showLost p).wantTest i g = (s.wantTest i g).showLost p := by
  unfold Part.wantTest
  simp only [Part.showLost_window, Part.showLost_slot, Part.showLost_modWindow, Part.showLost_placeWanted]
  split
  · rfl
  · split <;> rfl

@[simp] theorem Part.showLost_tagRequest (i : Fin 16) (g : Nat) (r : HeldRequest) :
    (s.showLost p).tagRequest q i g r = (s.tagRequest q i g r).showLost p := by
  simp only [Part.tagRequest, Part.issueTo, Part.refuseHeld, Part.showLost_window, Part.showLost_pfw, Part.showLost_refuse,
    Part.showLost_modWindow, Part.showLost_placeTag, Bool.false_eq_true, if_false, Part.showLost_wantTest]
  repeat' split
  all_goals rfl

@[simp] theorem Part.showLost_acceptStep (j : TagJob) :
    (s.showLost p).acceptStep q j = (s.acceptStep q j).showLost p := by cases p <;> rfl

@[simp] theorem Part.showLost_acceptLife (l : Lifecycle) (id : Option Ident) :
    (s.showLost p).acceptLife q l id = (s.acceptLife q l id).showLost p := by cases p <;> rfl

@[simp] theorem Part.showLost_acceptLoad (i : Fin 16) (a : Attrs) (k : Key) (c : Fin 48) (g : Nat) :
    (s.showLost p).acceptLoad q i a k c g = (s.acceptLoad q i a k c g).showLost p := by cases p <;> rfl

/-- Replacing the receiver or the seal window leaves the flag as it shows. -/
theorem Part.showLost_withReceiver (r : Receiver) :
    ({ s.showLost p with receiver := r } : Part) = ({ s with receiver := r } : Part).showLost p := by cases p <;> rfl

theorem Part.showLost_withSeal (w : Option (Port × Count)) :
    ({ s.showLost p with sealWindow := w } : Part) = ({ s with sealWindow := w } : Part).showLost p := by cases p <;> rfl

/-! ### The commands -/

variable (b : List Word)

theorem Part.showLost_statusRead : (s.showLost p).statusRead q b = (s.statusRead q b).showLost p := by
  unfold Part.statusRead
  split
  · simp
  · rename_i peek _
    cases peek <;> simp <;> (cases p <;> cases q <;> rfl)

theorem Part.showLost_setMask : (s.showLost p).setMask q b = (s.setMask q b).showLost p := by
  unfold Part.setMask
  split
  · simp
  · rw [← Part.showLost_answer]; congr 1; cases p <;> cases q <;> rfl

theorem Part.showLost_slotInfo : (s.showLost p).slotInfo q b = (s.slotInfo q b).showLost p := by
  unfold Part.slotInfo; split <;> simp

theorem Part.showLost_storeInfo : (s.showLost p).storeInfo q b = (s.storeInfo q b).showLost p := by
  unfold Part.storeInfo; split <;> simp

theorem Part.showLost_quickTag : (s.showLost p).quickTag q b = (s.quickTag q b).showLost p := by
  simp only [Part.quickTag, Part.showLost_checkUse, Part.showLost_refuse, Part.showLost_tagRequest]
  repeat' split
  all_goals rfl

theorem Part.showLost_quickVerify : (s.showLost p).quickVerify q b = (s.quickVerify q b).showLost p := by
  simp only [Part.quickVerify, Part.showLost_checkUse, Part.showLost_refuse, Part.showLost_placeTag]
  repeat' split
  all_goals rfl

theorem Part.showLost_chainOpen : (s.showLost p).chainOpen q b = (s.chainOpen q b).showLost p := by
  simp only [Part.chainOpen, Part.showLost_te, Part.showLost_checkUse, Part.showLost_refuse, Part.showLost_tagRequest,
    Part.showLost_placeTag]
  repeat' split
  all_goals rfl

theorem Part.showLost_chainData : (s.showLost p).chainData q b = (s.chainData q b).showLost p := by
  simp only [Part.chainData, Part.showLost_te, Part.showLost_refuse, Part.showLost_acceptStep]
  repeat' split
  all_goals rfl

theorem Part.showLost_chainClose : (s.showLost p).chainClose q b = (s.chainClose q b).showLost p := by
  simp only [Part.chainClose, Part.showLost_te, Part.showLost_refuse, Part.showLost_acceptStep]
  repeat' split
  all_goals rfl

theorem Part.showLost_chainDrop : (s.showLost p).chainDrop q b = (s.chainDrop q b).showLost p := by
  simp only [Part.chainDrop, Part.showLost_te, Part.showLost_refuse]
  repeat' split
  all_goals first | rfl | (cases p <;> cases q <;> rfl)

theorem Part.showLost_envOpen : (s.showLost p).envOpen b = (s.envOpen b).showLost p := by
  simp only [Part.envOpen, Part.showLost_receiver, Part.showLost_ms, Part.showLost_refuse]
  repeat' split
  all_goals first | rfl | (cases p <;> rfl)

theorem Part.showLost_envData : (s.showLost p).envData b = (s.envData b).showLost p := by
  simp only [Part.envData, Part.showLost_receiver, Part.showLost_ms, Part.showLost_refuse]
  repeat' split
  all_goals first | rfl | (cases p <;> rfl)

theorem Part.showLost_envClose : (s.showLost p).envClose b = (s.envClose b).showLost p := by
  simp only [Part.envClose, Part.showLost_receiver, Part.showLost_refuse, Part.showLost_firstChecks, Part.showLost_withReceiver,
    Part.showLost_giveVerdict, Part.showLost_placeTag]
  repeat' split
  all_goals rfl

theorem Part.showLost_envDrop : (s.showLost p).envDrop b = (s.envDrop b).showLost p := by
  simp only [Part.envDrop, Part.showLost_receiver, Part.showLost_refuse]
  repeat' split
  all_goals first | rfl | (cases p <;> rfl)

theorem Part.showLost_networkOnly (c : Cmd) (run : Part → Part) (h : (run (s.showLost p)) = (run s).showLost p) :
    (s.showLost p).networkOnly q c run = (s.networkOnly q c run).showLost p := by
  cases q
  · simp [Part.networkOnly]
  · exact h

theorem Part.showLost_activate : (s.showLost p).activate q b = (s.activate q b).showLost p := by
  simp only [Part.activate, Part.showLost_activateCheck, Part.showLost_refuse, Part.showLost_accept]
  repeat' split
  all_goals rfl

theorem Part.showLost_adopt : (s.showLost p).adopt q b = (s.adopt q b).showLost p := by
  simp only [Part.adopt, Part.showLost_adoptCheck, Part.showLost_projected, Part.showLost_slot, Part.showLost_mode, Part.showLost_pfw,
    Part.showLost_refuse, Part.showLost_answer, Part.showLost_accept]
  repeat' split
  all_goals rfl

theorem Part.showLost_setIdentity : (s.showLost p).setIdentity q b = (s.setIdentity q b).showLost p := by
  simp only [Part.setIdentity, Part.showLost_projectedLife, Part.showLost_mode, Part.showLost_pfw, Part.showLost_refuse,
    Part.showLost_acceptLife]
  repeat' split
  all_goals rfl

theorem Part.showLost_loadPlain : (s.showLost p).loadPlain q b = (s.loadPlain q b).showLost p := by
  simp only [Part.loadPlain, Part.showLost_projectedLife, Part.showLost_projected, Part.showLost_slot, Part.showLost_mode,
    Part.showLost_freeCell, Part.showLost_pfw, Part.showLost_allocate, Part.showLost_setCell, Part.showLost_refuse,
    Part.showLost_acceptLoad]
  repeat' split
  all_goals rfl

theorem Part.showLost_unload : (s.showLost p).unload q b = (s.unload q b).showLost p := by
  simp only [Part.unload, Part.showLost_projectedLife, Part.showLost_slot, Part.showLost_projected, Part.showLost_mode,
    Part.showLost_pfw, Part.showLost_refuse, Part.showLost_answer, Part.showLost_accept]
  repeat' split
  all_goals rfl

theorem Part.showLost_openSeal : (s.showLost p).openSeal q = (s.openSeal q).showLost p := by
  cases p <;> cases q <;> rfl

theorem Part.showLost_secondSeal : (s.showLost p).secondSeal q = (s.secondSeal q).showLost p := by
  let checked (t : Part) : Part :=
    if t.sealReady = false then t.refuse (waiterOf q) .seal .sealPrecondition
    else if t.mode = .failed then t.refuse (waiterOf q) .seal .store
    else if t.pfw then t.refuse (waiterOf q) .seal .powerLow
    else t.acceptLife q .sealed t.projectedIdentity
  have h (t : Part) : checked (t.showLost p) = (checked t).showLost p := by
    simp only [checked, Part.showLost_sealReady, Part.showLost_mode, Part.showLost_pfw, Part.showLost_projectedIdentity,
      Part.showLost_refuse, Part.showLost_acceptLife]
    repeat' split
    all_goals rfl
  exact (congrArg checked (Part.showLost_withSeal s p none)).trans (h _)

theorem Part.showLost_seal : (s.showLost p).seal q b = (s.seal q b).showLost p := by
  simp only [Part.seal, Part.showLost_projectedLife, Part.showLost_sealWindow, Part.showLost_openSeal, Part.showLost_secondSeal,
    Part.showLost_refuse]
  repeat' split
  all_goals rfl

/-- A command leaves what it would leave had the frame lost no reply, with LOST shown (R174, R175). -/
theorem Part.showLost_command (c : Cmd) : (s.showLost p).command q c b = (s.command q c b).showLost p := by
  match c with
  | .nop => rfl
  | .statusRead => exact Part.showLost_statusRead s p q b
  | .setMask => exact Part.showLost_setMask s p q b
  | .slotInfo => exact Part.showLost_slotInfo s p q b
  | .storeInfo => exact Part.showLost_storeInfo s p q b
  | .quickTag => exact Part.showLost_quickTag s p q b
  | .quickVerify => exact Part.showLost_quickVerify s p q b
  | .chainOpen => exact Part.showLost_chainOpen s p q b
  | .chainData => exact Part.showLost_chainData s p q b
  | .chainClose => exact Part.showLost_chainClose s p q b
  | .chainDrop => exact Part.showLost_chainDrop s p q b
  | .envOpen => exact Part.showLost_networkOnly s p q _ (fun t => t.envOpen b) (Part.showLost_envOpen s p b)
  | .envData => exact Part.showLost_networkOnly s p q _ (fun t => t.envData b) (Part.showLost_envData s p b)
  | .envClose => exact Part.showLost_networkOnly s p q _ (fun t => t.envClose b) (Part.showLost_envClose s p b)
  | .envDrop => exact Part.showLost_networkOnly s p q _ (fun t => t.envDrop b) (Part.showLost_envDrop s p b)
  | .activate => exact Part.showLost_activate s p q b
  | .adopt => exact Part.showLost_adopt s p q b
  | .setIdentity => exact Part.showLost_setIdentity s p q b
  | .loadPlain => exact Part.showLost_loadPlain s p q b
  | .unload => exact Part.showLost_unload s p q b
  | .seal => exact Part.showLost_seal s p q b

/-! ### The offered reply settled (R175) -/

/-- An offered reply is delivered, lost or kept (R175). -/
theorem Part.settle_of_ready {s : Part} {p : Port} {r : Reply} (hj : (s.port p).job = .ready r) (hw : r.words ≠ []) (n : Nat)
    (valid : Bool) : s.settle p r.words n valid =
      if r.words.length + 1 ≤ n then (s.deliverReply p r, false)
      else if valid then (s.forgetReply p r, true) else (s, false) := by
  simp [Part.settle, hj, hw]

variable (r : Reply)

theorem Part.closeTransfer_deliverReply : (s.closeTransfer p).deliverReply p r = s.delivered p r := by
  unfold Part.deliverReply Part.delivered Part.emptied
  cases r.maker <;> cases p <;> simp [Part.closeTransfer, Part.modPort, Part.setPort, Part.port]

theorem Part.closeTransfer_forgetReply : (s.closeTransfer p).forgetReply p r = s.emptied p r := by
  unfold Part.forgetReply Part.emptied
  cases r.maker <;> cases p <;> simp [Part.closeTransfer, Part.modPort, Part.setPort, Part.port]

@[simp] theorem Part.emptied_phase : (s.emptied p r).phase = s.phase := by cases p <;> rfl
@[simp] theorem Part.emptied_job : ((s.emptied p r).port p).job = .idle := by cases p <;> rfl
@[simp] theorem Part.emptied_offer : ((s.emptied p r).port p).offer = none := by cases p <;> rfl
@[simp] theorem Part.delivered_phase : (s.delivered p r).phase = s.phase := by
  unfold Part.delivered; cases r.maker <;> cases p <;> rfl
@[simp] theorem Part.delivered_job : ((s.delivered p r).port p).job = .idle := by
  unfold Part.delivered; cases r.maker <;> cases p <;> rfl
@[simp] theorem Part.delivered_offer : ((s.delivered p r).port p).offer = none := by
  unfold Part.delivered; cases r.maker <;> cases p <;> rfl

/-! ### Frames judged (R173, R177) -/

/-- A whole frame at a port that is IDLE with no transfer open is dispatched (R177). -/
theorem Part.frame_idle {s : Part} {p : Port} {c : Cmd} {body : List Word} (h : s.takes p) (ho : (s.port p).offer = none)
    (hb : body.length ≤ maxBody) (run : Part → Part) : s.frame p c body run = s.dispatch p c false false run := by
  obtain ⟨hr, hj⟩ := h
  have hrun : s.running = true := by simp [Part.running, hr]
  have hc : s.closeTransfer p = s := by
    cases p <;> (simp only [Part.port] at ho; simp only [Part.closeTransfer, Part.modPort, Part.setPort, Part.port, ← ho])
  have hset : ∀ o n v, s.settle p o n v = (s, false) :=
    fun o n v => Part.settle_of_not_ready (by simp [hj, PortJob.isReady]) o n v
  simp [Part.frame, hrun, hc, hset, Part.offerNow, hj, PortJob.isWaiting, Nat.not_lt.mpr hb]

/-- A frame that lost a reply is dispatched as one that lost none, with LOST shown (R174, R177). -/
theorem Part.dispatch_lost (c : Cmd) (body : List Word) (busy : Bool) :
    s.dispatch p c true busy (fun t => t.command p c body) =
      (s.dispatch p c false busy (fun t => t.command p c body)).showLost p := by
  unfold Part.dispatch
  dsimp only
  split
  · cases p <;> rfl
  · split
    · cases p <;> rfl
    · rw [← Part.showLost_command]; congr 1; cases p <;> rfl

/-- A transfer judged while the part runs, its words a frame without a frame error, settles the offered reply and dispatches the command
(R173, R177). -/
theorem Part.judge_of_frame {s : Part} {o : Offer} {c : Cmd} {body words : List Word} (hr : s.running = true) (hl : o.live = true)
    (hz : words.all (· == 0) = false) (hd : decodeFrame words = some (c, body)) (run : Cmd → List Word → Part → Part) :
    s.judge p o words run =
      ((s.closeTransfer p).settle p o.reply words.length true).1.dispatch p c
        ((s.closeTransfer p).settle p o.reply words.length true).2 o.busy (run c body) := by
  have h0 : words ≠ [] := by rintro rfl; simp [decodeFrame] at hd
  have h1 : words ≠ [0xFFFF] := by
    rintro rfl
    rw [show decodeFrame [0xFFFF] = none by decide] at hd
    cases hd
  unfold Part.judge
  dsimp only
  rw [if_neg (by simp [h0, hl, hr]), if_neg (by rw [hz]; decide), if_neg h1, hd]

/-- A row of the code table is its command's frame (R185). -/
theorem exec_of_command {i : Instr} {p : Port} {c : Cmd} {body : List Word} (h : i.command? = some (p, c, body)) (s : State) :
    exec i s = .next (s.withPart (s.frame p c body (fun t => t.command p c body))) := by
  cases i <;> simp only [Instr.command?, Option.some.injEq, Prod.mk.injEq, reduceCtorEq] at h <;>
    obtain ⟨rfl, rfl, rfl⟩ := h <;> rfl

end

end Sys2Proof.Machine
end

