-- ==== Sys2Proof/Laws/Steps.lean ====
section
/-! SUPPORT. A commit that has stopped (R83): nothing that follows puts a step of it on the list, and a job that goes back comes without the
steps of the commits that its return stops. -/

namespace Sys2Proof.Machine

/-! ### Jobs that are put on the list and taken off it -/

theorem mem_insertByAge (j x : Job) (l : List Job) : x ∈ insertByAge j l ↔ x = j ∨ x ∈ l := by
  induction l with
  | nil => simp [insertByAge]
  | cons k l ih => unfold insertByAge; split <;> simp [ih, or_left_comm]

/-- A merged job is a step of what either job is a step of (R75). -/
theorem mem_merge_commits (j k : Job) (x : Nat × Nat) : x ∈ (j.merge k).commits ↔ x ∈ j.commits ∨ x ∈ k.commits := by
  by_cases h : x ∈ j.commits <;> simp [Job.merge, uniteCommits, h]

/-- A job on the list after one is put there: one of the list, or the one put, with the steps of the job it merged with, if any (R75). -/
theorem mem_putJob {j x : Job} {l : List Job} (h : x ∈ putJob j l) :
    x ∈ l ∨ ∀ y ∈ x.commits, y ∈ j.commits ∨ ∃ k ∈ l, y ∈ k.commits := by
  unfold putJob at h
  split at h
  · rcases (mem_insertByAge _ _ _).1 h with rfl | h
    · exact .inr fun y hy => .inl hy
    · exact .inl h
  · rename_i k hk
    rcases (mem_insertByAge _ _ _).1 h with rfl | h
    · exact .inr fun y hy => ((mem_merge_commits _ _ _).1 hy).elim (fun h => .inr ⟨k, List.mem_of_find?_eq_some hk, h⟩) .inl
    · exact .inl (List.mem_of_mem_filter h)

/-- A job left when a commit's steps are dropped: one of the list, a step of what it was but of that commit (R83). -/
theorem mem_dropSteps {k : Nat} {x : Job} {l : List Job} (h : x ∈ dropSteps k l) :
    ∃ y ∈ l, ∀ z, z ∈ x.commits ↔ z ∈ y.commits ∧ z.1 ≠ k := by
  simp only [dropSteps, List.mem_map] at h
  obtain ⟨y, hy, rfl⟩ := h
  exact ⟨y, List.mem_of_mem_filter hy, by simp⟩

/-- The steps of a returning job are those of the commits that run (R83). -/
@[simp] theorem Part.mem_liveSteps (s : Part) (j : Job) (x : Nat × Nat) :
    x ∈ (s.liveSteps j).commits ↔ x ∈ j.commits ∧ s.commit x.1 ≠ none := by
  simp [Part.liveSteps, Option.isSome_iff_ne_none]

@[simp] theorem Part.liveSteps_id (s : Part) (j : Job) : (s.liveSteps j).id = j.id := rfl
@[simp] theorem Part.liveSteps_cls (s : Part) (j : Job) : (s.liveSteps j).cls = j.cls := rfl
@[simp] theorem Part.liveSteps_age (s : Part) (j : Job) : (s.liveSteps j).age = j.age := rfl
@[simp] theorem Part.liveSteps_requesters (s : Part) (j : Job) : (s.liveSteps j).requesters = j.requesters := rfl

/-! ### A commit that has gone stays gone -/

section
variable {s t : Part} {n : Nat}

theorem Part.commitGone.of_eq (h : s.commitGone n) (hj : t.jobs = s.jobs) (hc : t.commits = s.commits) : t.commitGone n := by
  simpa [Part.commitGone, Part.commit, hj, hc] using h

theorem Part.commitGone.foldl {α : Type} {f : Part → α → Part} (hf : ∀ s a, s.commitGone n → (f s a).commitGone n) (l : List α)
    (h : s.commitGone n) : (l.foldl f s).commitGone n := by
  induction l generalizing s with
  | nil => exact h
  | cons a l ih => exact ih (hf s a h)

theorem Part.commitGone.jobsFilter (h : s.commitGone n) (f : Job → Bool) :
    ({ s with jobs := s.jobs.filter f } : Part).commitGone n := ⟨h.1, fun j hj => h.2 j (List.mem_of_mem_filter hj)⟩

theorem Part.commitGone.unplace (h : s.commitGone n) (i : JobId) : (s.unplace i).commitGone n := h.jobsFilter _

theorem Part.commitGone.put (h : s.commitGone n) {j : Job} (hj : ∀ q, (n, q) ∉ j.commits) :
    ({ s with jobs := putJob j s.jobs } : Part).commitGone n :=
  ⟨h.1, fun _ hx q hq => (mem_putJob hx).elim (fun hx => h.2 _ hx q hq)
    fun hx => (hx _ hq).elim (hj q) fun ⟨k, hk, hq⟩ => h.2 k hk q hq⟩

theorem Part.commitGone.place (h : s.commitGone n) (i : JobId) (k : Nat) (r : Requester) : (s.place i k r []).commitGone n :=
  (h.put (j := { id := i, cls := k, age := s.nextAge, requesters := [r], commits := [] }) (by simp)).of_eq rfl rfl

theorem Part.commitGone.modPort (h : s.commitGone n) (p : Port) (f : PortState → PortState) : (s.modPort p f).commitGone n := by
  cases p <;> exact h.of_eq rfl rfl

theorem Part.commitGone.answer (h : s.commitGone n) (w : Waiter) (c : Cmd) (r : Code) (l : List ReplyItem) :
    (s.answer w c r l).commitGone n := by
  unfold Part.answer
  split
  · exact h
  · exact h.modPort _ _

theorem Part.commitGone.giveVerdict (h : s.commitGone n) (v : Code) : (s.giveVerdict v).commitGone n := by
  unfold Part.giveVerdict
  split
  · exact h.of_eq rfl rfl
  · refine Part.commitGone.modPort ?_ _ _
    exact h.of_eq rfl rfl

theorem Part.commitGone.expiryTest (h : s.commitGone n) (i : Fin 16) : (s.expiryTest i).commitGone n := by
  unfold Part.expiryTest
  dsimp only
  split
  · refine Part.commitGone.place ?_ _ _ _
    exact h.of_eq rfl rfl
  · exact h

theorem Part.commitGone.raiseBoth (h : s.commitGone n) (f : Events → Events) : (s.raiseBoth f).commitGone n := by
  have one (s : Part) (p : Port) (h : s.commitGone n) : (s.raise p f).commitGone n := by
    unfold Part.raise
    split
    · exact h.modPort _ _
    · cases p <;> exact h.of_eq rfl rfl
  exact one _ _ (one _ _ h)

theorem Part.commitGone.refuseAllHeld (h : s.commitGone n) (l : List Held) (r : Code) : (s.refuseAllHeld l r).commitGone n :=
  Part.commitGone.foldl (fun _ _ h => h.answer _ _ _ _) l h

theorem Part.commitGone.releaseCell (h : s.commitGone n) (c : Fin 48) (k : Nat) : (s.releaseCell c k).commitGone n := by
  refine Part.commitGone.place ?_ _ _ _
  exact h.of_eq rfl rfl

/-- A commit that ends has no record, and the others keep theirs. -/
theorem Part.commit_endCommit (s : Part) (k n : Nat) : (s.endCommit k).commit n = if n = k then none else s.commit n := by
  unfold Part.commit Part.endCommit
  rw [List.find?_filter]
  split
  · rename_i h; subst h; simp
  · rename_i h
    congr 1
    funext c
    by_cases hc : c.id = n <;> simp [hc, h]

/-- The commit that stops is gone, and what else is gone stays so (R83). -/
theorem Part.stopCommit_gone (s : Part) (k : Nat) (h : s.commit n ≠ none ∧ k = n ∨ s.commitGone n) : (s.stopCommit k).commitGone n := by
  unfold Part.stopCommit
  split
  · rename_i hk
    rcases h with ⟨h, rfl⟩ | h
    · exact absurd hk h
    · exact h
  · have key : ({ s with jobs := dropSteps k s.jobs }.endCommit k).commitGone n := by
      refine ⟨?_, fun x hx q hq => ?_⟩
      · rw [Part.commit_endCommit]
        rcases h with ⟨-, rfl⟩ | h
        · simp
        · split
          · rfl
          · exact h.1
      · obtain ⟨y, hy, hz⟩ := mem_dropSteps hx
        have hq := (hz _).1 hq
        rcases h with ⟨-, rfl⟩ | h
        · exact hq.2 rfl
        · exact h.2 y hy q hq.1
    dsimp only
    split
    · exact key
    · exact key.releaseCell _ _

theorem Part.stopCommit_runs (s : Part) {k : Nat} (hk : k ≠ n) (h : s.commit n ≠ none) : (s.stopCommit k).commit n ≠ none := by
  unfold Part.stopCommit
  split
  · exact h
  · have key : ({ s with jobs := dropSteps k s.jobs }.endCommit k).commit n ≠ none := by
      rw [Part.commit_endCommit, if_neg (Ne.symm hk)]; exact h
    dsimp only
    split <;> exact key

theorem Part.dropChange_gone (s : Part) (c : Change) (r : Code)
    (h : s.commit n ≠ none ∧ c.kind.commit? = some n ∨ s.commitGone n) : (s.dropChange c r).commitGone n := by
  have key : (match c.kind.commit? with
      | none => s
      | some k => s.stopCommit k).commitGone n := by
    split
    · rename_i hk
      exact h.elim (fun h => by simp [hk] at h) id
    · rename_i k hk
      exact Part.stopCommit_gone s k (h.imp_left fun h => ⟨h.1, by simpa [hk] using h.2⟩)
  have answered (u : Part) (h : u.commitGone n) : (match c.source with
      | .command w => u.refuse w c.kind.cmd r
      | .envelope => u.giveVerdict r
      | .part => u).commitGone n := by
    split
    · exact h.answer _ _ _ _
    · exact h.giveVerdict _
    · exact h
  exact answered _ key

theorem Part.dropChange_runs (s : Part) (c : Change) (r : Code) (hc : c.kind.commit? ≠ some n) (h : s.commit n ≠ none) :
    (s.dropChange c r).commit n ≠ none := by
  have key : (match c.kind.commit? with
      | none => s
      | some k => s.stopCommit k).commit n ≠ none := by
    split
    · exact h
    · rename_i k hk
      exact Part.stopCommit_runs s (fun e => hc (by rw [hk, e])) h
  have answered (u : Part) (h : u.commit n ≠ none) : (match c.source with
      | .command w => u.refuse w c.kind.cmd r
      | .envelope => u.giveVerdict r
      | .part => u).commit n ≠ none := by
    split
    · unfold Part.refuse Part.answer
      split
      · exact h
      · cases Waiter.port _ <;> exact h
    · unfold Part.giveVerdict
      split <;> exact h
    · exact h
  exact answered _ key

/-- A withdrawal stops the commit of every change it is given and finds not taken (R17, R83). -/
theorem Part.withdrawLoop_gone (i : Fin 16) (sel : Change → Bool) (why : Why) (l : List Change) :
    ∀ (p : Pers) (b : Bool) (s : Part),
      (s.commit n ≠ none ∧ ∃ c ∈ l, c.taken = false ∧ sel c = true ∧ c.kind.commit? = some n) ∨ s.commitGone n →
      (Part.withdrawLoop i sel why l p b s).1.commitGone n := by
  induction l with
  | nil => intro p b s h; exact h.elim (fun h => by simp at h) id
  | cons c l ih =>
    intro p b s h
    unfold Part.withdrawLoop
    dsimp only
    split
    · rename_i r hr
      refine ih _ _ _ ?_
      rcases h with ⟨h, d, hd, h1, h2, h3⟩ | h
      · by_cases hc : c.kind.commit? = some n
        · exact .inr (Part.dropChange_gone s c r (.inl ⟨h, hc⟩))
        · refine .inl ⟨Part.dropChange_runs s c r hc h, d, ?_, h1, h2, h3⟩
          rcases List.mem_cons.1 hd with rfl | hd
          · exact absurd h3 hc
          · exact hd
      · exact .inr (Part.dropChange_gone s c r (.inr h))
    · rename_i hr
      refine ih _ _ _ (h.imp_left ?_)
      rintro ⟨h, d, hd, h1, h2, h3⟩
      refine ⟨h, d, ?_, h1, h2, h3⟩
      rcases List.mem_cons.1 hd with rfl | hd
      · simp [h1, h2] at hr
      · exact hd

theorem Part.withdraw_gone (s : Part) (i : Fin 16) (sel : Change → Bool) (why : Why)
    (h : (s.commit n ≠ none ∧ ∃ c ∈ (s.slot i).awaiting, c.taken = false ∧ sel c = true ∧ c.kind.commit? = some n) ∨ s.commitGone n) :
    (s.withdraw i sel why).commitGone n := by
  have h1 := Part.withdrawLoop_gone i sel why (s.slot i).awaiting (s.slot i).applied false s h
  have leave (u : Part) (b : Bool) (h : u.commitGone n) : (if b then u.unplace (.slot i) else u).commitGone n := by
    split
    · exact h.unplace _
    · exact h
  have restore (u : Part) (h : u.commitGone n) :
      (if restores (s.projected i) (u.projected i) then u.expiryTest i else u).commitGone n := by
    split
    · exact h.expiryTest i
    · exact h
  exact restore _ (leave _ _ (h1.of_eq rfl rfl))

theorem Part.commitGone.withdraw (h : s.commitGone n) (i : Fin 16) (sel : Change → Bool) (why : Why) :
    (s.withdraw i sel why).commitGone n := Part.withdraw_gone s i sel why (.inr h)

theorem Part.commitGone.withdrawLife (h : s.commitGone n) (r : Code) : (s.withdrawLife r).commitGone n := by
  refine Part.commitGone.unplace (Part.commitGone.foldl (fun _ _ h => h.answer _ _ _ _) _ ?_) _
  exact h.of_eq rfl rfl

theorem Part.commitGone.abandon (h : s.commitGone n) (i : Fin 16) (g : Nat) : (s.abandon i g).commitGone n := by
  unfold Part.abandon
  split
  · exact h
  · refine Part.commitGone.refuseAllHeld ?_ _ _
    exact h.of_eq rfl rfl

theorem Part.commitGone.refuseQueuedHeld (h : s.commitGone n) : s.refuseQueuedHeld.commitGone n := by
  refine Part.commitGone.foldl (fun s w h => ?_) _ h
  unfold Part.refuseQueued
  split
  · refine Part.commitGone.refuseAllHeld ?_ _ _
    exact h.of_eq rfl rfl
  · exact h

theorem Part.commitGone.powerSweep (h : s.commitGone n) : s.powerSweep.commitGone n :=
  ((Part.commitGone.foldl (fun _ _ h => h.withdraw _ _ _) _
    (Part.commitGone.foldl (fun _ _ h => h.withdraw _ _ _) _ h)).withdrawLife _).refuseQueuedHeld

/-! ### The journal's tests -/

theorem Part.commitGone.unwritable (h : s.commitGone n) (j : Job) : (s.unwritable j).commitGone n := by
  unfold Part.unwritable
  dsimp only
  split
  · split
    · exact (h.unplace _).abandon _ _
    · exact (h.unplace _).withdraw _ _ _
  · exact (h.unplace _).withdraw _ _ _
  · exact (h.unplace _).withdrawLife _
  all_goals exact h.unplace _

theorem Part.commitGone.failStore (h : s.commitGone n) : s.failStore.commitGone n := by
  unfold Part.failStore
  dsimp only
  refine Part.commitGone.jobsFilter ?_ _
  refine Part.commitGone.foldl (fun s j h => ?_) _ (Part.commitGone.raiseBoth ?_ _)
  · split
    · exact h.unwritable j
    · exact h
  · exact h.of_eq rfl rfl

theorem Part.commitGone.recount (h : s.commitGone n) : s.recount.commitGone n := by
  unfold Part.recount
  dsimp only
  split
  · split
    · exact Part.commitGone.failStore (h.of_eq rfl rfl)
    all_goals
      refine Part.commitGone.raiseBoth ?_ _
      exact h.of_eq rfl rfl
  · exact h.of_eq rfl rfl

theorem Part.commitGone.foundBad (h : s.commitGone n) (p : Fin 8) (r : Bool) : (s.foundBad p r).commitGone n := by
  have h1 : (if r = true then s.modPage p (fun x => { x with role := .retiring }) else s.pageGone p).recount.commitGone n := by
    refine Part.commitGone.recount ?_
    split <;> exact h.of_eq rfl rfl
  have listed (u : Part) (h : u.commitGone n) : (if u.mode = .failed then u else u.place (.pagebad p) 4 .journal []).commitGone n := by
    split
    · exact h
    · exact h.place _ _ _
  exact listed _ h1

theorem Part.commitGone.reclaimed (h : s.commitGone n) : s.reclaimed.commitGone n := by
  unfold Part.reclaimed
  dsimp only
  split
  · exact h.of_eq rfl rfl
  · split
    · exact Part.commitGone.failStore (h.of_eq rfl rfl)
    · exact h.of_eq rfl rfl

theorem Part.reclaimOldest_gone (fuel : Nat) (m : Bool) : ∀ s : Part, s.commitGone n → (Part.reclaimOldest fuel s m).commitGone n := by
  induction fuel generalizing m with
  | zero => exact fun s h => h
  | succ k ih =>
    intro s h
    unfold Part.reclaimOldest
    split
    · exact h.of_eq rfl rfl
    · rename_i p _
      have next (u : Part) (h : u.commitGone n) : (if u.mode = .failed then u else Part.reclaimOldest k u true).commitGone n := by
        split
        · exact h
        · exact ih _ _ h
      have page (l : List (Fin 31)) (u : Part) (h : u.commitGone n) :
          (if (s.page p).role = .retiring then
              if l = [] then
                if ((u.pageGone p).reclaimed).mode = .failed then (u.pageGone p).reclaimed
                else Part.reclaimOldest k (u.pageGone p).reclaimed true
              else u
            else (u.place (.pageErase p) 1 .journal []).place (.header p .wear) 1 .journal []).commitGone n := by
        split
        · split
          · exact next _ (Part.commitGone.reclaimed (h.of_eq rfl rfl))
          · exact h
        · exact (h.place _ _ _).place _ _ _
      exact page _ _ (Part.commitGone.foldl (fun _ _ h => h.place _ _ _) _ (h.of_eq rfl rfl))

theorem Part.commitGone.ringTests (h : s.commitGone n) : s.ringTests.commitGone n := by
  have h1 : s.headSwitchTest.commitGone n := by
    unfold Part.headSwitchTest
    split
    · exact h
    · split
      · exact h
      · rename_i p _
        have h1 : s.closeHead.commitGone n := by
          unfold Part.closeHead; split <;> exact h.of_eq rfl rfl
        have h2 : (s.closeHead.openHead p).commitGone n := Part.commitGone.place (h1.of_eq rfl rfl) _ _ _
        unfold Part.headSwitch Part.nextSpare
        split
        · exact h2.of_eq rfl rfl
        · split
          · exact h2
          · exact Part.reclaimOldest_gone _ _ _ h2
  unfold Part.ringTests Part.roomTest
  split
  · exact h1.failStore
  · exact h1

/-! ### A job that goes back (R59, R83) -/

/-- A job that goes back is put on the list, if it is, without the steps of the commits that have gone (R83). -/
theorem Part.returnJob_gone (s : Part) (j : Job) (h : (s.untake j).commitGone n) : (s.returnJob j).commitGone n := by
  unfold Part.returnJob
  dsimp only
  split
  · exact h
  · split
    · exact h.unwritable j
    · have h1 : ({ s.untake j with jobs := putJob ((s.untake j).liveSteps j) (s.untake j).jobs } : Part).commitGone n :=
        h.put (fun q hq => ((Part.mem_liveSteps _ _ _).1 hq).2 h.1)
      split
      · exact h1.powerSweep
      · exact h1

/-- The return of a SLOT record's job, in a slot that has entered ZEROIZING or whose tamper event waited, stops the commit of every change
that the record carried (R18, R83, R171). -/
theorem Part.untake_gone (s : Part) (j : Job) (i : Fin 16) (c : Change) (hj : j.id = .slot i)
    (hz : (s.slot i).zeroizing = true ∨ (s.slot i).armed = true) (hm : s.mode ≠ .failed) (hc : c ∈ (s.slot i).awaiting)
    (ht : c.taken = true) (hn : c.kind.commit? = some n) (hr : s.commit n ≠ none) : (s.untake j).commitGone n := by
  unfold Part.untake
  rw [hj]
  dsimp only
  rw [if_pos ⟨hz, hm⟩]
  refine Part.withdraw_gone _ _ _ _ (.inl ⟨hr, { c with taken := false }, ?_, rfl, ?_, hn⟩)
  · rw [Part.modSlot_eq, Part.slot_setSlot_self]
    exact List.mem_map.2 ⟨c, hc, rfl⟩
  · have hk : c.kind ≠ .zeroize := fun e => by simp [e, ChangeKind.commit?] at hn
    simp only [List.contains_iff_mem, Bool.and_eq_true, decide_eq_true_eq]
    exact ⟨List.mem_map.2 ⟨c, List.mem_filter.2 ⟨hc, ht⟩, rfl⟩, hk⟩

end

end Sys2Proof.Machine
end

