-- ==== Sys2Proof/Tests/Slice0.lean ====
section
/-! SUPPORT. Tests. What each expected result was worked out from stands beside it: the worked cases of spec/, the published test vectors
of AES-128 (FIPS 197) and of the CRC named in R184, or a hand calculation from the rule cited. The witnesses show, for each statement with
hypotheses, a state and operands that meet them, at the ends of the ranges its clauses give. -/

namespace Sys2Proof.Tests
open Sys2Proof.Machine

-- one theorem at a time: each of those below evaluates in the kernel, and together they would take a thread each
set_option Elab.async false

/-! ### States to test on -/

/-- A running part in PROVISIONED. -/
def run : State := { State.reset with phase := .running, lifecycle := .provisioned }

/-- Attributes of a class with S_min 16, label "A", grace 60 and erase-on-tamper. -/
def attrs (c : SlotClass) : Attrs := { cls := c, erase := true, tslot := 0, smin := 16, label := [0x41], grace := 60 }

/-- A READY slot of a class with CURRENT generation 1 in a cell. -/
def ready (c : SlotClass) (cell : Fin 48) : Pers :=
  { attrs := some (attrs c), highest := 1, pending := none, current := some { num := 1, cell := cell }, outgoing := none,
    mpView := freshView c .mp, npView := freshView c .np, onCommand := false }

/-- A STAGED slot: PENDING generation 2 in cell 9. -/
def staged : Pers := { ready .shared 4 with highest := 2, pending := some { num := 2, cell := 9 }, onCommand := true }

/-- A SWITCHING slot: CURRENT 2, OUTGOING 1 that the metrology port's view names. -/
def switching : Pers :=
  { ready .shared 9 with
    highest := 2, current := some { num := 2, cell := 9 }, outgoing := some { num := 1, cell := 4 }, mpView := some .outgoing }

/-- A window of slot 3, generation 1. -/
def win (t p : Nat) (r : Reservation) : Window :=
  { slot := 3, gen := 1, t := t, p := p, sCur := 16, grantTime := 0, grantCounter := 1, rateKnown := false, exhausted := false,
    reservation := r, held := [] }

/-- A state with a slot's applied state replaced. -/
def put (s : State) (i : Fin 16) (x : Pers) : State := s.withPart (s.setSlot i { s.slot i with applied := x })

/-- A state with changes awaiting in a slot. -/
def await (s : State) (i : Fin 16) (l : List Change) : State := s.withPart (s.setSlot i { s.slot i with awaiting := l })

/-- Slot 3 SHARED and READY, with a window. -/
def tagging (w : Window) : State := { put run 3 (ready .shared 4) with windows := [w] }

/-- A command's change, ready. -/
def change (k : ChangeKind) (p : Port) (taken : Bool) : Change :=
  { kind := k, ready := true, taken := taken, source := .command { port := p, condemned := false } }

/-- A job of class 4. -/
def job (id : JobId) : Job := { id := id, cls := 4, age := 1, requesters := [.keyStore], commits := [] }

/-- Page 0 is the stamped head with its first position free. -/
def headed (s : State) : State :=
  s.withPart { (s.modPage 0 (fun x => { x with role := .head, seq := some 1 })) with headStamped := true }

/-- A state with a job in flight. -/
def flying (s : State) (j : Job) (w : Work) : State := { headed s with inFlight := some { job := j, work := w } }

/-- A page stamped as page 1 whose first positions hold records. -/
def writtenPage (l : List Record) : StoredPage :=
  { wear := encodeStamp wearMarker 25000, stamp := encodeStamp seqMarker 1,
    records := Vector.ofFn (fun i : Fin 31 => ((l.map encodeRecord)[i.val]?).getD .erased) }

/-- The records of a part with slot 3 SHARED in STAGED, generations 1 and 2, and its CEIL records. -/
def written : List Record :=
  [(Body.life .sealed (some 0x0102030405060708)).record 1, (Body.tamper 4).record 2, (Body.slot 3 staged).record 3,
   (Body.ceil 3 1 257 256).record 4, (Body.ceil 3 2 17 16).record 5]

/-- A reset part whose page 0 holds those records, cells 4 and 9 their keys, and cell 5 a torn program. -/
def stored : State :=
  { State.reset with
    store :=
      { pages := State.reset.store.pages.set 0 (writtenPage written),
        cells := ((State.reset.store.cells.set 4 (encodeCell { slot := 3, gen := 1, key := 7 })).set 9
          (encodeCell { slot := 3, gen := 2, key := 8 })).set 5 .broken } }

/-- A ring with these roles (RESERVE after the list's end), page 0's used and failed positions as given, page 7 holding the records of
`written` with the LIFE record live. -/
def ringOf (l : List PageRole) (used failed : Nat) : State :=
  { run with
    pages := Vector.ofFn (fun i : Fin 8 =>
      let r := (l[i.val]?).getD .reserve
      { role := r, erases := 5, seq := if r.inRing then some (8 - i.val) else none, used := if i = 0 then used else 31,
        failed := if i = 0 then failed else 0 }),
    store := { State.reset.store with pages := State.reset.store.pages.set 7 (writtenPage written) },
    facts := [{ key := .life, page := 7, pos := 0, seq := 1 }], headStamped := true, nextPageSeq := 9 }

/-- A ring with a spare and no RESERVE page; one with neither, its oldest page live. -/
def lastSpare (used failed : Nat) : State := ringOf (.head :: .spare :: List.replicate 6 .closed) used failed
def noSpare (used : Nat) : State := ringOf (.head :: List.replicate 7 .closed) used 0

/-- A state with this job in flight. -/
def fliesOn (s : State) (j : Job) (w : Work) : State := { s with inFlight := some { job := j, work := w } }

/-- The change of an envelope, of a command not yet ready, and a grace expiry. -/
def envChange (k : ChangeKind) (done : Bool) : Change := { kind := k, ready := done, taken := done, source := .envelope }
def unready (k : ChangeKind) (p : Port) : Change := { change k p false with ready := false }
def expiry (taken : Bool) : Change := { kind := .expiry, ready := true, taken := taken, source := .part }

/-! ### Well-formed commands (R176) -/

theorem test_body_of_38_words : (Instr.nop .mp (List.replicate 38 0)).wf = true := by decide
theorem test_body_of_39_words_refused : (Instr.nop .mp (List.replicate 39 0)).wf = false := by decide
theorem test_event_has_no_body : (Instr.tamperEvent 0).wf = true := by decide

/-! ### The check word, the cipher, the stride, the stored items -/

/-- The published check value of this CRC: initial FFFFh over "123456789". -/
theorem test_crc_check_value : crc 0xFFFF [0x31, 0x32, 0x33, 0x34, 0x35, 0x36, 0x37, 0x38, 0x39] = 0x29B1 := by decide +kernel

/-- FIPS 197, appendix C.1. -/
theorem test_cipher_vector : encipher 0x000102030405060708090A0B0C0D0E0F 0x00112233445566778899AABBCCDDEEFF =
    0x69C4E0D86A7B0430D8CDB78070B4C55A := by decide +kernel

/-- Worked case 1 of chapter 2: S 1,024, P_new 51,201. -/
theorem test_stride_steady : newCeiling 50177 (capped (limited (demand true 1024 180 1024) 1024 256) 0 .normal) = 51201 := by
  decide +kernel

/-- Worked case 2: q 6,144 becomes 8,192, is limited to 4,096, and wear level 2 makes 16,384. -/
theorem test_stride_burst : capped (limited (demand true 1024 20 1024) 1024 256) 2 .normal = 16384 := by decide +kernel

/-- Worked case 3: DEGRADED, the last window. -/
theorem test_stride_last : newCeiling 4294934529 (capped 16 0 .degraded) = 4294967295 := by decide +kernel

/-- The wear level of R68 at its steps. -/
theorem test_wear_level : ({ headed run with pages := (headed run).pages.set 0 { (headed run).page 0 with erases := 25000 } } : State).wearLevel
    = 1 := by decide +kernel

/-- R69. -/
theorem test_store_modes : modeOf 5 = .normal ∧ modeOf 4 = .degraded ∧ modeOf 3 = .degraded ∧ modeOf 2 = .failed := by decide

/-- A factory-blank store starts with page 0 SPARE, the others RESERVE and no head (R94). -/
theorem test_blank_start_up :
    (State.reset.toPart.replay.page 0).role = .spare ∧ (State.reset.toPart.replay.page 7).role = .reserve ∧
    State.reset.toPart.replay.head = none ∧ State.reset.toPart.replay.mode = .normal := by decide +kernel

/-- The stored part comes back SEALED, its windows at their ceilings, its torn cell released (R96, R47, R98). -/
theorem test_stored_start_up :
    stored.toPart.replay.lifecycle = .sealed ∧ stored.toPart.replay.tamperCount = 4 ∧ stored.toPart.replay.nextSeq = 6 ∧
    (stored.toPart.replay.slot 3).applied = staged ∧ (stored.toPart.replay.window 3 1).map Window.t = some 257 ∧
    (stored.toPart.replay.window 3 2).map Window.t = some 1 ∧ stored.toPart.replay.cell 5 = .released none ∧
    stored.toPart.replay.wear = 1 := by decide +kernel

/-! ### Commands, one step each -/

/-- What a port holds after a step. -/
def portAfter (o : Host.Outcome State Fault Refusal) (p : Port) : Option PortJob :=
  match o with
  | .next t => some (t.port p).job
  | .fault _ | .refused _ => none

/-- STORE_INFO of a blank part after start-up (R73): mode NORMAL, w 0, 8 usable, no head. -/
theorem test_store_info :
    (portAfter (step { run with toPart := { State.reset.toPart.replay with phase := .running }, pending := [.storeInfo .mp []] }) .mp).map
      (fun j => j.reply.take 4) = some [0x0004, 0x0000, 0x0800, 0x0000] := by decide +kernel

/-- NOP keeps the port IDLE (R177). -/
theorem test_nop : portAfter (step { run with pending := [.nop .mp []] }) .mp = some .idle := by decide +kernel

/-- SET_MASK answers with the mask (R182). -/
theorem test_set_mask : portAfter (step { run with pending := [.setMask .np [0x0012]] }) .np =
    some (.ready { words := [0x0002, 0x0012], maker := .plain }) := by decide +kernel

/-- What holds of the part after a step. -/
def after (o : Host.Outcome State Fault Refusal) (f : State → Bool) : Bool :=
  match o with
  | .next t => f t
  | .fault _ | .refused _ => false

/-- The last value, 4,294,967,294, is issued and the window is exhausted (R44). -/
theorem test_last_value :
    after (step { tagging (win 4294967294 4294967295 .none) with pending := [.quickTag .mp [0x0300]] })
      (fun t => decide (t.te.mp = some (.quickTag 3 1 4294967294 []) ∧ (t.window 3 1).map Window.exhausted = some true)) = true := by
  decide +kernel

/-- A closed window under PFW refuses with WINDOW_CLOSED (R40). -/
theorem test_window_closed :
    portAfter (step { tagging { win 17 17 .queued with held := [] } with pfw := true, pending := [.quickTag .mp [0x0300]] }) .mp =
      some (.ready { words := [0x1610], maker := .plain }) := by decide +kernel

/-- A SLOT that ACTIVATE moves into SWITCHING takes its grace, 60 s (R131, R132). -/
theorem test_activate_applied :
    after (step { flying (await (put run 3 staged) 3 [change (.activate 2) .np true]) (job (.slot 3))
        (.record 0 0 1 (.slot 3 (staged.fold (.activate 2)))) with pending := [.recordProgramDone true] })
      (fun t => decide ((t.slot 3).applied.state = .switching ∧ (t.slot 3).graceLeft = some 60 ∧
        (t.port .np).job = .ready { words := [0x0024, 0x0300, 2, 1, 60], maker := .plain })) = true := by decide +kernel

/-- A tamper event zeroizes and counts (R169, R170). -/
theorem test_tamper_event :
    after (step { put run 3 (ready .shared 4) with tamp := true, debounce := some 0, pending := [.tamperEvent 20] })
      (fun t => decide (t.tamperCount = 1 ∧ (t.slot 3).state = .zeroizing ∧ t.mp.events.tamper = some 8)) = true := by decide +kernel

/-! ### Witnesses: the queue and the ports -/

/-- A state with a port replaced. -/
def portSet (s : State) (p : Port) (x : PortState) : State := s.withPart (s.setPort p x)

/-- The metrology port with a command in flight. -/
def waiting : State := portSet run .mp { run.port .mp with job := .waiting .quickTag }

/-- A plain reply of one word per entry. -/
def reply (w : List Word) : Reply := { words := w, maker := .plain }

/-- A transfer that offers these reply words. -/
def offer (w : List Word) : Offer := { status := 0, reply := w, busy := false, live := true }

/-- The metrology port READY with a reply that a transfer offers. -/
def offering (r : Reply) : State := portSet run .mp { run.port .mp with job := .ready r, offer := some (offer r.words) }

/-- What a reply showed of a power-on reset and one frame error. -/
def shown : Shown :=
  { reset := true, forced := none, store := none, cellLost := none, tamper := none, chainAbort := false, envAbort := false, errors := 1 }

theorem witness_NopChangesOnlyTheFlags :
    run.phase = .running ∧ (run.port .mp).job.isReady = false ∧ (waiting.port .mp).job.isReady = false ∧
    (List.replicate 38 (0 : Word)).length ≤ maxBody := by decide +kernel

theorem witness_BusyPortRefusesEveryCommand :
    (Instr.statusRead .mp [0]).command? = some (.mp, .statusRead, [0]) ∧ Cmd.statusRead ≠ .nop ∧ [(0 : Word)].length ≤ maxBody ∧
    waiting.phase = .running ∧ (waiting.port .mp).job = .waiting .quickTag := by decide +kernel

/-- The metrology port within a transfer that began with a command in flight. -/
def begun (j : PortJob) : State :=
  portSet run .mp { run.port .mp with job := j, offer := some { status := 0x2000, reply := [], busy := true, live := true } }

/-- The command still in flight at the release, and its reply ready by then; a body of 38 words. -/
theorem witness_BusyPortRefusesEveryCommand_begun :
    (∀ j ∈ [PortJob.waiting .quickTag, .ready (reply [0x0010])],
      (begun j).phase = .running ∧ ((begun j).port .mp).job = j ∧
      ∃ o, ((begun j).port .mp).offer = some o ∧ o.live = true ∧ o.busy = true ∧ o.reply = []) ∧
    (List.replicate 38 (0 : Word)).length ≤ maxBody :=
  ⟨fun _ _ => ⟨rfl, rfl, _, rfl, rfl, rfl, rfl⟩, by decide⟩

/-- A reply that became ready during the transfer is kept, and the frame is refused as busy (R175, R177). -/
theorem test_reply_ready_in_the_transfer_is_kept :
    after (exec (.transferJudged .mp (encodeFrame .storeInfo [])) (begun (.ready (reply [0x0010]))))
      (fun t => decide ((t.port .mp).job = .ready (reply [0x0010]) ∧ (t.port .mp).busyref = true ∧ (t.port .mp).lost = false)) = true := by
  decide +kernel

theorem witness_StartingPortsTakeNothing :
    State.reset.phase ≠ .running ∧ ({ State.reset with phase := .sampled } : State).phase ≠ .running ∧
    (Instr.nop .mp []).command? = some (.mp, .nop, []) ∧
    (portSet run .mp { run.port .mp with offer := some { status := 0x1000, reply := [], busy := false, live := false } }).phase = .running := by
  decide +kernel

theorem witness_FrameErrorIsCounted :
    let s := offering (reply [0x0010])
    s.phase = .running ∧ (s.port .mp).offer = some (offer [0x0010]) ∧ (offer [0x0010]).live = true ∧
    [(0x0100 : Word)] ≠ [] ∧ (0x0100 : Word) ≠ 0 ∧ [(0x0100 : Word)] ≠ [0xFFFF] ∧ decodeFrame [0x0100] = none ∧
    ((offer [0x0010]).reply = [] ∨ [(0x0100 : Word)].length ≤ (offer [0x0010]).reply.length) := by decide +kernel

/-- All clocked out; one word short of it; a NOP frame of two words against a reply of two. -/
theorem witness_TransferSettlesTheReply :
    let s := offering (reply [0x0002, 0x0012])
    s.phase = .running ∧ (s.port .mp).offer = some (offer [0x0002, 0x0012]) ∧ (offer [0x0002, 0x0012]).live = true ∧
    (s.port .mp).job = .ready (reply [0x0002, 0x0012]) ∧ (reply [0x0002, 0x0012]).words ≠ [] ∧
    (reply [0x0002, 0x0012]).words.length < 3 ∧ (reply [0x0002, 0x0012]).maker = .plain ∧
    0 < 2 ∧ 2 ≤ (reply [0x0002, 0x0012]).words.length ∧ ([] : List Word).length + 2 ≤ (reply [0x0002, 0x0012]).words.length := by
  decide +kernel

/-- A frame of three words, one more than the reply, and a frame of two; an offer with a reply and a command in flight; a wrong frame of three
words; a verdict and a STATUS_READ reply. -/
theorem witness_TransferSettlesTheReply_frames :
    (offer [0x0002, 0x0012]).busy = false ∧ (Instr.statusRead .mp [0]).command? = some (.mp, .statusRead, [0]) ∧
    (reply [0x0002, 0x0012]).words.length < [(0 : Word)].length + 2 ∧ [(0 : Word)].length ≤ maxBody ∧
    (Instr.storeInfo .mp []).command? = some (.mp, .storeInfo, []) ∧
    ([] : List Word).length + 2 ≤ (reply [0x0002, 0x0012]).words.length ∧
    (let s := portSet run .mp { run.port .mp with
       job := .ready (reply [0x0002, 0x0012]), offer := some { (offer [0x0002, 0x0012]) with busy := true } }
     s.phase = .running ∧ (s.port .mp).job = .ready (reply [0x0002, 0x0012]) ∧ Cmd.storeInfo ≠ .nop) ∧
    (reply [0x0002, 0x0012]).words.length < [(0x0100 : Word), 0, 0].length ∧ decodeFrame [0x0100, 0, 0] = none ∧
    ((offering { words := [0x2A22], maker := .verdict }).port .mp).job = .ready { words := [0x2A22], maker := .verdict } ∧
    ((offering { words := [0x0001], maker := .status shown }).port .mp).job = .ready { words := [0x0001], maker := .status shown } := by
  decide +kernel

/-- SET_MASK in three words at a READY port: a reply of two words is delivered, one of three is lost and LOST shows (R175); the command is
taken either way. -/
theorem test_frame_settles_the_reply :
    after (exec (.transferJudged .mp (encodeFrame .setMask [1])) (offering (reply [0x0002, 0x0012])))
      (fun t => decide ((t.port .mp).job = .ready (reply [0x0002, 1]) ∧ (t.port .mp).lost = false)) = true ∧
    after (exec (.transferJudged .mp (encodeFrame .setMask [1])) (offering (reply [0x0003, 0, 0])))
      (fun t => decide ((t.port .mp).job = .ready (reply [0x0002, 1]) ∧ (t.port .mp).lost = true)) = true := by decide +kernel

theorem witness_IdleStepsAndEmptyTransfers :
    run.pending = [] ∧ State.reset.pending = [] ∧ State.reset.phase = .held ∧ (run.port .mp).offer = none := by decide +kernel

theorem witness_SelectFixesTheOffer : (run.port .mp).job = .idle ∧ run.phase = .running ∧ State.reset.phase ≠ .running := by decide +kernel

/-- R173 and R174: RDY with LEN 1, the reply's word, then zero words; in reset zero words alone (R90). -/
theorem test_words_clocked_out :
    ((offering (reply [0x0010])).offerNow .mp).clockedOut 4 = [0x4001, 0x0010, 0, 0] ∧
    (State.reset.offerNow .mp).clockedOut 2 = [0, 0] := by decide +kernel

/-- R45: COUNTER_LOW stands for T above 4,293,918,719. -/
theorem test_counter_low :
    (tagging (win 4293918720 4294967295 .none)).counterLow .np = 0x0008 ∧
    (tagging (win 4293918719 4294967295 .none)).counterLow .np = 0 := by decide +kernel

theorem witness_StatusWordShowsThePort :
    State.reset.phase = .held ∧ ({ run with phase := .replayed } : State).phase = .replayed ∧ run.phase = .running ∧
    ((offering (reply (List.replicate 38 0))).port .mp).job.reply.length ≤ 38 := by decide +kernel

theorem witness_TransferCarriesTheCommand :
    (Instr.storeInfo .np []).command? = some (.np, .storeInfo, []) ∧ ([] : List Word).length ≤ maxBody ∧ run.phase = .running ∧
    ∃ u, exec (.selectAsserted .np) run = .next u := ⟨rfl, by decide, rfl, _, rfl⟩

/-- The port that takes a command in most of the witnesses below. -/
theorem run_takes (p : Port) : run.takes p := by cases p <;> exact ⟨rfl, rfl⟩

theorem witness_StatusReadReports : run.takes .mp := run_takes .mp

theorem witness_StatusDeliveryAcknowledges :
    let s := offering { words := [0x0001], maker := .status shown }
    s.phase = .running ∧ (s.port .mp).offer = some (offer [0x0001]) ∧ (offer [0x0001]).live = true ∧ [(0x0001 : Word)] ≠ [] ∧
    (s.port .mp).job = .ready { words := [0x0001], maker := .status shown } ∧ [(0x0001 : Word)].length < 2 := by decide +kernel

/-- The largest mask; a reserved bit; a part about to leave STARTING; an empty mask. -/
theorem witness_SetMaskSetsTheMask :
    run.takes .np ∧ (2047#16).toNat < 2048 ∧ (∀ w : Word, [(2048#16 : Word)] = [w] → 2048 ≤ w.toNat) ∧
    ({ State.reset with phase := .sampled } : State).mayLeave = true ∧
    ((portSet run .np { run.port .np with mask := 0 }).port .np).mask = 0 :=
  ⟨run_takes .np, by decide, by rintro w ⟨⟩; decide, by decide, rfl⟩

theorem witness_InfoCommandsOnlyReply :
    run.takes .mp ∧ (run.slot 0).applied.attrs = none ∧ ((put run 15 (ready .shared 4)).slot 15).applied.attrs = some (attrs .shared) ∧
    15 < (hiByte (0x1000 : Word)).toNat ∧
    (let s := run.withPart (run.setSlot 3 { run.slot 3 with zeroizing := true, awaiting := [expiry false] })
     (s.slot 3).applied.attrs = none ∧ (s.slot 3).state = .zeroizing) :=
  ⟨run_takes .mp, rfl, by decide +kernel, by decide, by decide +kernel⟩

/-- A ZEROIZING slot without attributes reports what awaits (R18, R23). -/
theorem test_slot_info_zeroizing :
    (portAfter (step { run.withPart (run.setSlot 3 { run.slot 3 with zeroizing := true, awaiting := [expiry false] }) with
        pending := [.slotInfo .mp [0x0300]] }) .mp).map (fun j => j.reply.take 3) = some [0x0003, 0x0306, 0x0100] := by decide +kernel

/-- A body for each clause, at the first value outside its range. -/
theorem witness_BadBodiesAreRefused :
    run.takes .np ∧ (List.replicate 38 (0 : Word)).length ≤ maxBody ∧ 2 ≤ ([(2#16 : Word)].getD 0 0).toNat ∧
    15 < (hiByte ([(0x1000 : Word)].getD 0 0)).toNat ∧ [(0 : Word)] ≠ [] ∧ 64 < (loByte ([(0x0041 : Word)].getD 0 0)).toNat ∧
    60 < (loByte ([(0x003D : Word)].getD 0 0)).toNat ∧
    ¬ (([(0x0001 : Word), 0x1001].length = 2 ∧ (loByte ([(0x0001 : Word), 0x1001].getD 0 0)).toNat = 1 ∨
        [(0x0001 : Word), 0x1001].length = 5 ∧ (loByte ([(0x0001 : Word), 0x1001].getD 0 0)).toNat = 2) ∧
      ([(0x0001 : Word), 0x1001].getD 1 0).toNat ≤ 4096) ∧
    [(0 : Word), 0, 0, 0].all (· == 0) = true ∧ 74 < ([(75#16 : Word)].getD 0 0).toNat ∧
    (∃ x ∈ (wordBytes [0x4100, 0, 0x0001]).drop 1, x ≠ 0) :=
  ⟨run_takes .np, by decide +kernel⟩

/-! ### Witnesses: the tag engine -/

/-- Slot 3 of class METROLOGY, which the network port may not use. -/
def metrologyOnly : State := put run 3 (ready .metrology 4)

/-- Slot 3 EMPTY: a class and no generation. -/
def empty : State := put run 3 { Pers.blank with attrs := some (attrs .shared), highest := 1 }

/-- One state for each of the five checks of R19, and an argument of each command. -/
theorem witness_KeyChecksRefuseInOrder :
    run.takes .mp ∧ 15 < 16 ∧ ({ run with lifecycle := .blank } : State).takes .np ∧
    ({ run with lifecycle := .blank } : State).lifecycle = .blank ∧
    metrologyOnly.lifecycle ≠ .blank ∧ (metrologyOnly.slot 3).applied.user .np = false ∧
    (empty.slot 3).applied.user .np = true ∧ (empty.slot 3).state.holds = false ∧
    (metrologyOnly.slot 3).applied.user .mp = true ∧ (metrologyOnly.slot 3).state.holds = true ∧
    (metrologyOnly.slot 3).applied.holdsUsable 2 = false ∧
    argQuickTag [0x0300] = some (3, []) ∧ argQuickVerify [0x0300, 2, 0, 7, 0, 0, 0, 1] = some (3, 2, 7, 1, []) ∧
    argChainOpen [0x0302, 0x1000, 2, 0, 7] = some (3, .verify, 4096, 2, 7) ∧ run.te.context .mp = none :=
  ⟨run_takes .mp, by decide, ⟨rfl, rfl⟩, rfl, by decide, rfl, rfl, rfl, rfl, rfl, rfl, rfl, rfl, rfl, rfl⟩

/-- The key checks pass in every state `tagging w`, for generation 1 of slot 3. -/
theorem tagging_usesKey (w : Window) (p : Port) : (tagging w).usesKey p 3 1 := by
  cases p <;> exact ⟨show Lifecycle.provisioned ≠ .blank by decide, rfl, rfl, .current, { num := 1, cell := 4 }, rfl, rfl, rfl⟩

theorem tagging_takes (w : Window) (p : Port) : (tagging w).takes p := by cases p <;> exact ⟨rfl, rfl⟩

/-- The first value of a window, the one that leaves it low, and the last there is. -/
theorem witness_TagTakesTheNextValue :
    (∀ w p, (tagging w).takes p ∧ (tagging w).usesKey p 3 1) ∧
    TagRow (tagging (win 1 17 .none)).toPart .mp 3 1 (.quickTag .mp [0x0300]) .quickTag (fun k => .quickTag 3 1 k []) (.quick []) ∧
    TagRow (tagging (win 1 17 .none)).toPart .np 3 1 (.chainOpen .np [0x0301, 0x1000]) .chainOpen
      (fun k => .chainOpen 3 1 .tag k 4096) (.chain 4096) ∧
    ((tagging (win 1 17 .none)).window 3 1 = some (win 1 17 .none) ∧ 1 < 17 ∧ ¬ 4 * (17 - 2) ≤ 16) ∧
    ((tagging (win 13 17 .none)).window 3 1 = some (win 13 17 .none) ∧ 4 * (17 - 14) ≤ 16) ∧
    ((tagging (win 4294967294 4294967295 .none)).window 3 1 = some (win 4294967294 4294967295 .none) ∧ 4294967295 ≤ maxCounter) :=
  ⟨fun w p => ⟨tagging_takes w p, tagging_usesKey w p⟩, .quick [] (by decide), .chain 0x1000 (by decide) (by decide), by decide +kernel⟩

/-- The exhausted window, and each line of R40. -/
theorem witness_ClosedWindowHoldsOrRefuses :
    (∀ w p, (tagging w).takes p ∧ (tagging w).usesKey p 3 1) ∧
    (let w : Window := { win 4294967295 4294967295 .none with exhausted := true }
     (tagging w).window 3 1 = some w ∧ w.t = w.p) ∧
    (let w : Window := { win 17 17 .queued with held := [{ waiter := { port := .np, condemned := false }, request := .quick [] }] }
     (tagging w).window 3 1 = some w ∧ w.t = w.p ∧ w.t < maxCounter ∧ (tagging w).pfw = false ∧
     (w.held.all (fun h => h.waiter.port != .mp)) = true ∧ (w.held.any (fun h => h.waiter.port == .np)) = true) ∧
    (let s : State := { tagging (win 17 17 .wanted) with mode := .failed }
     s.window 3 1 = some (win 17 17 .wanted) ∧ s.mode = .failed ∧ (win 17 17 .wanted).held = []) :=
  ⟨fun w p => ⟨tagging_takes w p, tagging_usesKey w p⟩, by decide +kernel⟩

/-- The generation of the port's view, and one that is named. -/
theorem witness_VerifyLeavesTheWindows :
    (tagging (win 17 17 .none)).takes .mp ∧
    VerifyRow (tagging (win 17 17 .none)).toPart .mp 3 0 1 (.quickVerify .mp [0x0300, 0, 0, 7, 0, 0, 0, 1]) .quickVerify
      (.quickVerify 3 1 7 1 []) ∧
    (tagging (win 17 17 .none)).verifiesWith .mp 3 0 1 ∧ (tagging (win 17 17 .none)).verifiesWith .mp 3 1 1 :=
  ⟨tagging_takes _ _, .quick [] (by decide) 0 7 0 0 0 1, .inl ⟨rfl, tagging_usesKey _ _⟩, .inr (by decide +kernel)⟩

/-- A chain of the metrology port with these bytes declared and taken. -/
def context (m : ChainMode) (n taken : Nat) : Context :=
  { port := .mp, mode := m, slot := 3, gen := 1, counter := 7, n := n, taken := taken, x := 0, part := [], last := 0 }

/-- A part with a live chain. -/
def chained (x : Context) : State := { tagging (win 8 17 .none) with te := { TagEngine.blank with live := some x } }

/-- A port whose chain is open, and an argument of CHAIN_OPEN. -/
theorem witness_KeyChecksRefuseInOrder_open :
    (chained (context .tag 4 0)).takes .mp ∧ (chained (context .tag 4 0)).te.context .mp ≠ none ∧
    argChainOpen [0x0301, 4] = some (3, .tag, 4, 0, 0) := ⟨⟨rfl, rfl⟩, by decide, by decide⟩

/-- A chain with room for all, for all but one byte, for less; a chain complete and one not; no chain. -/
theorem witness_ChainStepsArePlaced :
    (∀ m n k, (chained (context m n k)).takes .mp ∧ (chained (context m n k)).te.context .mp = some (context m n k)) ∧
    (context .tag 4096 4020).taken + 2 * 38 ≤ (context .tag 4096 4020).n ∧
    (context .tag 4095 4020).taken + 2 * 38 = (context .tag 4095 4020).n + 1 ∧
    (context .tag 4094 4020).n + 2 ≤ (context .tag 4094 4020).taken + 2 * 38 ∧
    (context .verify 5 5).taken = (context .verify 5 5).n ∧ (context .verify 5 4).taken ≠ (context .verify 5 4).n ∧
    run.te.context .mp = none :=
  ⟨fun _ _ _ => ⟨⟨rfl, rfl⟩, rfl⟩, by decide⟩

theorem witness_ChainDropDiscardsTheContext :
    (chained (context .tag 4 0)).takes .mp ∧ (chained (context .tag 4 0)).te.context .mp = some (context .tag 4 0) ∧
    run.takes .mp ∧ run.te.context .mp = none := ⟨⟨rfl, rfl⟩, by decide, run_takes .mp, by decide⟩

/-- No block, and one with the longest rest; a fresh context fed two pieces. -/
theorem witness_TagsFollowTheRule :
    (List.replicate 16 (0 : Byte)).length = 16 ∧ (List.replicate 15 (0 : Byte)).length < 16 ∧
    (let x := { context .tag 3 0 with x := encipher 7 (tagBlock0 7 3 3 1) }
     x.x = encipher 7 (tagBlock0 x.counter ([[1, 2], [3]] : List (List Byte)).flatten.length x.slot.val x.gen) ∧ x.part = []) :=
  ⟨rfl, by decide, rfl, rfl⟩

/-- Slot 3 READY with its key in cell 4, slot 0 TRANSPORT and READY with its key in cell 1. -/
def keyed : State :=
  { put (tagging (win 8 17 .none)) 0 { ready .transport 1 with mpView := none, npView := none } with
    store :=
      { State.reset.store with
        cells := (State.reset.store.cells.set 4 (encodeCell { slot := 3, gen := 1, key := 7 })).set 1
          (encodeCell { slot := 0, gen := 1, key := 9 }) } }

theorem witness_KeysComeFromHeldGenerations :
    keyed.keyFor 3 1 (some .mp) = some 7 ∧ (keyed.slot 3).zeroizing = false ∧
    (keyed.slot 3).applied.current = some { num := 1, cell := 4 } ∧ (keyed.slot 3).applied.user .mp = true ∧
    readCell keyed.store.cells[4] = .intact { slot := 3, gen := 1, key := 7 } := by decide +kernel

/-- An envelope of slot 3 under transport slot 0, its V and A made by R119 for identity 5, key 11 and transport key 9. -/
def envelope (k : EnvKind) : Envelope :=
  let e : Envelope :=
    { kind := k, destination := List.replicate 8 0xFF, reference := List.replicate 8 0, slot := 3, cls := .shared, tslot := 0, tgen := 1,
      gen := 2, immediate := false, grace := 60, label := [0x41], expected := none, b := 0, v := 0, a := 0, covered := [1] }
  let h (x : Byte) : Block := unwrapH 3 2 5 1 x
  let key : Key := match k with
    | .renew => 11
    | .cancel => 0
  { e with b := key ^^^ encipher 9 (h 0), v := firstHalf (encipher 9 (key ^^^ h 0xFF)), a := tagOf 9 2 3 1 [1] }

/-- The rotation from each last served; a running job and none; a key held and one not; a parked chain; an unwrap. -/
theorem witness_TagEngineTakesInRotation :
    (let te : TagEngine := { TagEngine.blank with mp := some (.quickTag 3 1 7 []), last := .er }
     te.run = none ∧ te.pendingOf .mp = some (.quickTag 3 1 7 []) ∧ [Client.mp, .np, .er] = [] ++ Client.mp :: [.np, .er]) ∧
    (let te : TagEngine := { TagEngine.blank with er := some (.unwrap (envelope .renew)), last := .mp }
     te.pendingOf .er = some (.unwrap (envelope .renew)) ∧ [Client.np, .er, .mp] = [.np] ++ Client.er :: [.mp] ∧
     te.pendingOf .np = none) ∧
    keyed.keyFor 3 1 (some .mp) = some 7 ∧ keyed.keyFor 3 2 (some .mp) = none ∧
    keyed.transportOk 0 1 = true ∧ keyed.keyFor 0 1 none = some 9 ∧ keyed.transportOk 3 2 = false ∧
    (let x := context .tag 4 0
     let te : TagEngine := { TagEngine.blank with mp := some (.chainData [1]), parked := some x }
     te.parked = some x ∧ te.live = none ∧ x.port = .mp ∧ keyed.keyFor x.slot x.gen (some .mp) = some 7) ∧
    (let te : TagEngine := { TagEngine.blank with mp := some (.chainData [1]) }
     te.pendingOf .mp = some (.chainData [1]) ∧ te.context .mp = none) ∧
    (let x := { context .tag 4 0 with gen := 2 }
     (chained x).te.context .mp = some x ∧ (chained x).keyFor x.slot x.gen (some .mp) = none) ∧
    run.te.mp = none ∧ run.te.np = none ∧ run.te.er = none := by
  decide +kernel

/-- A state whose tag engine runs a job of the metrology port under key 7. -/
def runs (s : State) (j : TagJob) (a : Abort) : State :=
  { s with te := { s.te with run := some { client := .mp, job := j, key := 7, abort := a, condemned := false } } }

theorem witness_VerificationComparesTags :
    (runs keyed (.quickVerify 3 1 7 0 []) .no).te.run =
      some { client := clientOf .mp, job := .quickVerify 3 1 7 0 [], key := 7, abort := .no, condemned := false } ∧
    (runs (chained (context .verify 0 0)) (.chainClose (some 0)) .no).te.run =
      some { client := clientOf .mp, job := .chainClose (some 0), key := 7, abort := .no, condemned := false } ∧
    (runs (chained (context .verify 0 0)) (.chainClose (some 0)) .no).te.context .mp = some (context .verify 0 0) := by decide

theorem witness_TagJobEndsWithItsReply :
    run.te.run = none ∧
    (runs keyed (.quickTag 3 1 7 []) .no).te.run =
      some { client := clientOf .mp, job := .quickTag 3 1 7 [], key := 7, abort := .no, condemned := false } ∧
    (runs keyed (.chainOpen 3 1 .tag 7 4) .no).te.run =
      some { client := clientOf .mp, job := .chainOpen 3 1 .tag 7 4, key := 7, abort := .no, condemned := false } ∧
    (runs (chained (context .tag 4 0)) (.chainData [1]) .event).phase = .running ∧
    (runs (chained (context .tag 4 0)) (.chainData [1]) .event).te.run =
      some { client := clientOf .mp, job := .chainData [1], key := 7, abort := .event, condemned := false } ∧
    (runs (chained (context .tag 4 0)) (.chainData [1]) .event).te.context .mp = some (context .tag 4 0) ∧
    (runs (chained (context .tag 0 0)) (.chainClose none) .no).te.context .mp = some (context .tag 0 0) ∧
    (runs (chained (context .tag 4 0)) (.chainData [1]) .silent).te.context .mp = some (context .tag 4 0) ∧
    (let s : State := runs run (.chainOpen 3 1 .tag 7 4) .silent
     ({ s.te with run := s.te.run.map (fun r => { r with condemned := true }) } : TagEngine).run =
       some { client := clientOf .mp, job := .chainOpen 3 1 .tag 7 4, key := 7, abort := .silent, condemned := true }) := by decide

/-- An IDLE port; a command in flight; a running CHAIN_DATA and a running CHAIN_CLOSE; an envelope being checked, and a verdict ready. -/
theorem witness_RestartClearsItsPort :
    run.phase = .running ∧ (run.port .mp).job = .idle ∧ (waiting.port .mp).job.isWaiting = true ∧
    (runs (chained (context .tag 4 0)) (.chainData [1]) .no).te.runningStep .mp = some (.chainData [1]) ∧
    (runs (chained (context .tag 0 0)) (.chainClose none) .no).te.runningStep .mp = some (.chainClose none) ∧
    (let s : State := { portSet run .np { run.port .np with job := .waiting .envClose } with
       receiver := { Receiver.blank with state := .checking } }
     (s.port .np).job.isWaiting = true ∧ s.receiver.state = .checking) ∧
    ((offering { words := [0x2A22], maker := .verdict }).port .mp).job = .ready { words := [0x2A22], maker := .verdict } ∧
    ((offering (reply [0x0010])).port .mp).offer = some (offer [0x0010]) ∧ (offer [0x0010]).live = true := by
  decide +kernel

/-! ### Witnesses: envelopes -/

/-- Slot 3 SHARED under transport slot 0, the network port free, and an envelope buffer with these bytes. -/
def receiving (st : EnvState) (b : List Byte) : State :=
  { keyed with receiver := { Receiver.blank with state := st, bytes := b }, identity := some 5 }

/-- Each state of the buffer, the shortest and the longest piece, 75 bytes and 76. -/
theorem witness_EnvelopeIsFilled :
    (∀ st b p, (receiving st b).takes p) ∧ (receiving .free []).receiver.state = .free ∧
    (receiving .filling []).receiver.state = .filling ∧ (receiving .checking []).receiver.state = .checking ∧
    1 ≤ [(0 : Byte)].length ∧ (List.replicate 74 (0 : Byte)).length ≤ 74 ∧
    (receiving .filling [0]).receiver.bytes.length + 74 ≤ 75 ∧ 75 < (receiving .filling [0, 0]).receiver.bytes.length + 74 ∧
    ([] : List Word).length ≤ maxBody := by
  refine ⟨fun st b p => ?_, by decide +kernel⟩
  cases p <;> exact ⟨rfl, rfl⟩

/-- A RENEW of slot 3, generation 2, label "A", without the expected-state part, V and A zero, and its check word: 62 bytes. -/
def envBytes (dest tslot tgen cls : Byte) : List Byte :=
  let e := [1] ++ List.replicate 8 dest ++ List.replicate 8 0 ++ [3, cls, tslot, 0, tgen, 0, 2, 2, 0, 0x3C, 0x41] ++ List.replicate 32 0
  e ++ wordPair (crc 0xFFFF e)

/-- 61 bytes; 62 bytes with a wrong check word; each check from 3 to 6 failing alone; all passing. -/
theorem witness_EnvCloseJudgesTheEnvelope :
    (∀ b, (receiving .filling b).takes .np ∧ (receiving .filling b).receiver.state = .filling ∧
      (receiving .filling b).receiver.condemned = false) ∧
    ((envBytes 0xFF 0 1 2).dropLast.length < 62 ∧ parseEnvelope (envBytes 0xFF 0 1 2).dropLast = none) ∧
    ((parseEnvelope (envBytes 0xFF 0 1 2)).isSome = true ∧ envelopeCheck (envBytes 0xFF 0 1 2) = true) ∧
    ((parseEnvelope ((envBytes 0xFF 0 1 2).take 60 ++ [0, 0])).isSome = true ∧
      envelopeCheck ((envBytes 0xFF 0 1 2).take 60 ++ [0, 0]) = false) ∧
    ((parseEnvelope (envBytes 0 0 1 2)).map (fun e => destinationOk e.destination (some 5)) = some false ∧
      envelopeCheck (envBytes 0 0 1 2) = true) ∧
    ((parseEnvelope (envBytes 0xFF 0 1 2)).map (fun e => destinationOk e.destination (some 5)) = some true ∧
      ({ keyed with lifecycle := .blank } : State).lifecycle = .blank) ∧
    ((parseEnvelope (envBytes 0xFF 0 1 3)).map keyed.slotCheckNow = some false ∧ keyed.lifecycle ≠ .blank) ∧
    ((parseEnvelope (envBytes 0xFF 0 2 2)).map (fun e => (keyed.slotCheckNow e, keyed.transportOk e.tslot e.tgen)) = some (true, false)) ∧
    ((parseEnvelope (envBytes 0xFF 0 1 2)).map (fun e => (keyed.slotCheckNow e, keyed.transportOk e.tslot e.tgen)) = some (true, true)) :=
  ⟨fun _ => ⟨⟨rfl, rfl⟩, rfl, rfl⟩, by decide +kernel⟩

theorem witness_UnwrapRecoversTheKey :
    let h : Block := blockOf (toBytes 1 3 ++ toBytes 2 2 ++ bytesOf 8 (5 : Ident) ++ toBytes 1 1 ++ [0, 0, 0, 0])
    (envelope .renew).kind = .renew ∧ (envelope .renew).b = 11 ^^^ encipher 9 h ∧ keyCheckOk 9 (envelope .renew) 5 = true ∧
    headerTagOk 9 (envelope .renew) = true ∧ (envelope .cancel).kind = .cancel ∧ keyCheckOk 9 (envelope .cancel) 5 = true := by
  decide +kernel

/-- A state whose tag engine runs an unwrap job under key 9. -/
def unwrapping (s : State) (e : Envelope) : State :=
  { s with
    identity := some 5,
    receiver := { Receiver.blank with state := .checking },
    te := { s.te with run := some { client := .er, job := .unwrap e, key := 9, abort := .no, condemned := false } } }

/-- A RENEW of a READY slot, the CANCEL of a STAGED one, and a key check that fails. -/
theorem witness_UnwrapEndsInItsCommit :
    (let e := envelope .renew
     let s := unwrapping keyed e
     s.te.run = some { client := .er, job := .unwrap e, key := 9, abort := .no, condemned := false } ∧ s.receiver.condemned = false ∧
     keyCheckOk 9 e (s.identity.getD 0) = true ∧ headerTagOk 9 e = true ∧ s.slotCheckNow e = true ∧ s.pfw = false ∧
     expectedOk (s.projected e.slot) e = true ∧ (s.projected e.slot).highest < e.gen ∧ (s.projected e.slot).pending = none ∧
     e.immediate = false ∧ s.mode = .normal ∧ s.freeCell = some 0) ∧
    (let e := envelope .cancel
     let s := unwrapping (put keyed 3 staged) e
     keyCheckOk 9 e (s.identity.getD 0) = true ∧ headerTagOk 9 e = true ∧ s.slotCheckNow e = true ∧
     expectedOk (s.projected e.slot) e = true ∧ isGen (s.projected e.slot).pending e.gen = true ∧ s.mode ≠ .failed ∧
     s.onList (.slot e.slot) = false) ∧
    keyCheckOk 9 { envelope .renew with v := 0 } 5 = false := by decide +kernel

/-- Each check after check 7 failing alone, with check 7 passed for either kind. -/
theorem witness_UnwrapEndsInItsCommit_verdicts :
    let e := envelope .renew
    let c := envelope .cancel
    keyCheckOk 9 e 5 = true ∧ headerTagOk 9 e = true ∧ keyCheckOk 9 c 5 = true ∧ headerTagOk 9 c = true ∧
    (unwrapping (put keyed 3 (ready .network 4)) e).slotCheckNow e = false ∧
    (let s := unwrapping (put keyed 3 { ready .shared 4 with highest := 2 }) e
     s.slotCheckNow e = true ∧ ¬ (s.projected 3).highest < e.gen) ∧
    (let s := unwrapping (put keyed 3 { staged with highest := 1 }) e
     s.slotCheckNow e = true ∧ (s.projected 3).highest < e.gen ∧ expectedOk (s.projected 3) e = true ∧ (s.projected 3).pending ≠ none) ∧
    (let s := unwrapping (put keyed 3 { switching with highest := 1 }) e
     s.slotCheckNow e = true ∧ (s.projected 3).highest < e.gen ∧ (s.projected 3).pending = none ∧ (s.projected 3).state.inSwitch = true) ∧
    ({ unwrapping keyed e with mode := .degraded } : State).mode ≠ .normal ∧
    ({ unwrapping keyed e with cells := Vector.replicate 48 .bad } : State).freeCell = none ∧
    ({ unwrapping keyed e with pfw := true } : State).freeCell = some 0 ∧
    isGen ((unwrapping keyed c).projected 3).pending c.gen = false ∧
    (let s := unwrapping (put keyed 3 staged) c
     s.slotCheckNow c = true ∧ isGen (s.projected 3).pending c.gen = true ∧ expectedOk (s.projected 3) c = true ∧ s.mode ≠ .failed) := by
  decide +kernel

/-! ### Witnesses: slots and the lifecycle -/

theorem witness_ChangesFoldAsTheRulesGive :
    staged.pending = some { num := 2, cell := 9 } ∧ switching.outgoing = some { num := 1, cell := 4 } ∧ staged.outgoing = none ∧
    (ready .shared 4).attrs = some (attrs .shared) ∧ (ready .shared 4).state = .ready ∧ switching.state = .switching ∧
    { Pers.blank with attrs := some (attrs .shared) }.state = .empty := by decide

/-- The network port may ACTIVATE; each check failing alone. -/
theorem witness_ActivateIsAccepted :
    let s := put run 3 staged
    (s.port .mp).job = .idle ∧ s.phase = .running ∧ s.takes .np ∧ (s.slot 3).zeroizing = false ∧ (s.projected 3).state = .staged ∧
    isGen (s.projected 3).pending (2#16).toNat = true ∧ isGen (s.projected 3).pending (1#16).toNat = false ∧ s.mode ≠ .failed ∧
    s.pfw = false ∧ (run.projected 3).state ≠ .staged ∧ ({ s with mode := .failed } : State).mode = .failed ∧
    ({ s with pfw := true } : State).pfw = true :=
  ⟨rfl, rfl, ⟨rfl, rfl⟩, by decide⟩

theorem witness_AdoptIsAnsweredOrAccepted :
    let s := put run 3 switching
    s.takes .mp ∧ (s.projected 3).user .mp = true ∧ (s.slot 3).zeroizing = false ∧ (s.projected 3).state.holds = true ∧
    isGen (s.projected 3).current (2#16).toNat = true ∧ (s.projected 3).view .mp ≠ some .current ∧
    (s.projected 3).view .np = some .current ∧ s.mode ≠ .failed ∧ s.pfw = false ∧
    isGen (s.projected 3).current (1#16).toNat = false ∧ (run.projected 3).user .mp = false ∧
    (empty.projected 3).user .mp = true ∧ (empty.projected 3).state.holds = false :=
  ⟨⟨rfl, rfl⟩, by decide⟩

/-- Into an UNUSED slot, and into an EMPTY one; S_min at both ends. -/
theorem witness_LoadOpensACommit :
    run.takes .mp ∧ (16#16).toNat = 2 ^ 4 ∧ (4096#16).toNat = 2 ^ 12 ∧ 1 ≤ [(0x41 : Byte)].length ∧ [(0x41 : Byte)].length ≤ 6 ∧
    labelForm [0x41] = true ∧ (List.replicate 8 (0 : Word)).length = 8 ∧ run.projectedLife = .provisioned ∧
    (run.slot 3).zeroizing = false ∧ (run.projected 3).state = .unused ∧ (run.projected 3).highest < 65535 ∧ run.mode = .normal ∧
    run.freeCell = some 0 ∧ run.pfw = false ∧ (empty.projected 3).state = .empty ∧ (empty.projected 3).attrs = some (attrs .shared) ∧
    ({ run with lifecycle := .blank } : State).projectedLife ≠ .provisioned ∧
    ((put run 3 staged).projected 3).state ≠ .unused ∧ ((put run 3 staged).projected 3).state ≠ .empty ∧
    { attrs .shared with smin := 32 } ≠ { attrs .shared with grace := 60 } ∧
    ((put run 3 { Pers.blank with highest := 65535 }).projected 3).state = .unused ∧
    65535 ≤ ((put run 3 { Pers.blank with highest := 65535 }).projected 3).highest ∧
    ({ run with mode := .degraded } : State).mode ≠ .normal ∧
    ({ run with cells := Vector.replicate 48 .bad } : State).freeCell = none ∧ ({ run with pfw := true } : State).freeCell = some 0 :=
  ⟨run_takes .mp, by decide +kernel⟩

theorem witness_UnloadIsAnsweredOrAccepted :
    run.takes .np ∧ run.projectedLife = .provisioned ∧ (run.slot 3).zeroizing = false ∧ (run.projected 3).state = .unused ∧
    (empty.projected 3).state ≠ .unused ∧ empty.projectedLife = .provisioned ∧ empty.mode ≠ .failed ∧ empty.pfw = false ∧
    ({ run with lifecycle := .sealed } : State).projectedLife ≠ .provisioned ∧
    ((put (run.withPart (run.setSlot 3 { run.slot 3 with zeroizing := true })) 3 (ready .shared 4)).slot 3).zeroizing = true :=
  ⟨run_takes .np, by decide⟩

/-- A BLANK part, a PROVISIONED one with slots that satisfy the precondition of SEAL and one whose slots do not. -/
theorem witness_LifeChangesNeedTheirSteps :
    (∀ p, ({ run with lifecycle := .blank } : State).takes p) ∧ ({ run with lifecycle := .blank } : State).projectedLife = .blank ∧
    ((1#16) ≠ 0 ∧ (0#16) ≠ 0xFFFF) ∧ run.projectedLife = .provisioned ∧ run.sealWindow = none ∧
    ({ run with sealWindow := some (.np, 0) } : State).sealWindow = some (Port.mp.other, 0) ∧
    (∃ i, (keyed.projected i).cls = some .transport ∧ (keyed.projected i).state = .ready ∧ (keyed.slot i).zeroizing = false) ∧
    (∀ i a, (keyed.projected i).attrs = some a →
      (keyed.projected a.tslot).cls = some .transport ∧ (keyed.projected a.tslot).state.holds = true ∧
      (keyed.slot a.tslot).zeroizing = false) ∧
    (∀ i, (keyed.slot i).awaiting = []) ∧ keyed.mode ≠ .failed ∧ keyed.pfw = false ∧
    (∀ i, (run.projected i).cls ≠ some .transport) ∧
    ({ run with lifecycle := .blank, mode := .failed } : State).projectedLife = .blank ∧
    ({ run with lifecycle := .blank, pfw := true } : State).mode ≠ .failed ∧
    ({ keyed with pfw := true } : State).mode ≠ .failed ∧ ({ keyed with mode := .failed } : State).mode = .failed := by
  refine ⟨fun p => by cases p <;> exact ⟨rfl, rfl⟩, by decide, by decide, by decide, by decide, by decide, by decide +kernel, ?_, by decide +kernel⟩
  have h : ∀ i : Fin 16, ((keyed.projected i).attrs.all (fun a => decide ((keyed.projected a.tslot).cls = some .transport ∧
      (keyed.projected a.tslot).state.holds = true ∧ (keyed.slot a.tslot).zeroizing = false))) = true := by decide +kernel
  intro i a ha
  simpa [ha] using h i

/-! ### Witnesses: resets and start-up -/

/-- A state with no other job than the one in flight. -/
def fly (w : Work) : State := flying (put run 3 (ready .shared 4)) (job (.slot 3)) w

theorem witness_ResetsClearRam :
    run.inFlight = none ∧ (fly (.carry 0 30 ((Body.tamper 1).record 2))).inFlight ≠ none ∧
    (∀ w ∈ [Work.header 7 (some 1) none, .header 7 none (some 1), .header 7 (some 1) (some 1)],
      (fly w).inFlight.map InFlight.work = some w) ∧
    (fly (.pageErase 7)).inFlight.map InFlight.work = some (.pageErase 7) ∧
    (fly (.cellErase 47)).inFlight.map InFlight.work = some (.cellErase 47) := by decide +kernel

/-- A part in reset that may start, its latest LIFE and TAMPER records; one with neither; and one that may not start. -/
theorem witness_StartUpReadsOnly :
    stored.phase = .held ∧ stored.supply = true ∧ stored.rstn = true ∧ run.phase ≠ .held ∧
    latestIn stored.store.found .life { page := 0, pos := 0, record := (Body.life .sealed (some 0x0102030405060708)).record 1 } ∧
    ((Body.life .sealed (some 0x0102030405060708)).record 1).body? = some (.life .sealed (some 0x0102030405060708)) ∧
    latestIn stored.store.found .tamper { page := 0, pos := 1, record := (Body.tamper 4).record 2 } ∧
    ((Body.tamper 4).record 2).body? = some (.tamper 4) ∧
    unrecorded State.reset.store.found .life ∧ unrecorded State.reset.store.found .tamper := by
  simp only [latestIn, unrecorded]; decide +kernel

/-- A second page stamped as page 2, with these items at its first positions. -/
def second (l : List Item) : State :=
  { stored with
    store := { stored.store with
      pages := stored.store.pages.set 1
        { wear := .erased, stamp := encodeStamp seqMarker 2, records := Vector.ofFn (fun i : Fin 31 => (l[i.val]?).getD .erased) } } }

/-- A page stamped, erased pages, and one whose sequence stamp is torn; the newest page with two failed positions, its wear stamp erased;
a page that its own PAGEBAD record lists, and one listed that has no intact stamp. -/
theorem witness_StartUpReadsThePages :
    stored.phase = .held ∧ stored.supply = true ∧ stored.rstn = true ∧ (∀ q, unrecorded stored.store.found (.pagebad q)) ∧
    (∀ q : Fin 8, stored.store.pages[q].failures ≤ 1) ∧ readStamp stored.store.pages[(0 : Fin 8)].stamp = .intact 1 ∧
    readStamp stored.store.pages[(0 : Fin 8)].wear = .intact 25000 ∧
    readStamp stored.store.pages[(7 : Fin 8)].stamp = .erased ∧
    readStamp stored.store.pages[(7 : Fin 8)].wear ≠ .broken ∧
    (∀ i : Fin 31, readRecord stored.store.pages[(7 : Fin 8)].records[i] = .erased) ∧ readStamp .broken = .broken ∧
    (let s := second [.broken, .broken]
     s.phase = .held ∧ 2 ≤ s.store.pages[(1 : Fin 8)].failures ∧ readStamp s.store.pages[(1 : Fin 8)].stamp = .intact 2 ∧
     readStamp s.store.pages[(1 : Fin 8)].wear = .erased ∧
     (∀ f ∈ s.store.found, f.record.body? ≠ some (.pagebad 1))) ∧
    (let s := second [encodeRecord ((Body.pagebad 1).record 7), encodeRecord ((Body.pagebad 2).record 8)]
     (∃ f ∈ s.store.found, f.record.body? = some (.pagebad 1)) ∧ (∃ f ∈ s.store.found, f.record.body? = some (.pagebad 2)) ∧
     latestIn s.store.found (.pagebad 1) { page := 1, pos := 0, record := (Body.pagebad 1).record 7 } ∧
     readStamp s.store.pages[(2 : Fin 8)].stamp = .erased) := by
  simp only [unrecorded, latestIn]; decide +kernel

/-- Page 1 erased below an erased page 2; page 1 owed an erase by its torn wear stamp alone, and by a used position alone. -/
theorem witness_StartUpReadsThePages_erased :
    (let bare (r : Fin 8) : Prop :=
       (∀ f ∈ stored.store.found, f.record.body? ≠ some (.pagebad r)) ∧ readStamp stored.store.pages[r].stamp = .erased ∧
       readStamp stored.store.pages[r].wear ≠ .broken ∧ ∀ i : Fin 31, readRecord stored.store.pages[r].records[i] = .erased
     bare 1 ∧ bare 2 ∧ (1 : Fin 8) < 2 ∧ ¬ bare 0) ∧
    (∀ g ∈ [({ StoredPage.erased with wear := .broken } : StoredPage), { StoredPage.erased with records := StoredPage.erased.records.set 30 .broken }],
      let s : State := { stored with store := { stored.store with pages := stored.store.pages.set 1 g } }
      s.phase = .held ∧ readStamp s.store.pages[(1 : Fin 8)].stamp = .erased ∧
      (∀ f ∈ s.store.found, f.record.body? ≠ some (.pagebad 1)) ∧
      (readStamp s.store.pages[(1 : Fin 8)].wear = .broken ∨ readRecord s.store.pages[(1 : Fin 8)].records[(30 : Fin 31)] ≠ .erased)) := by
  decide +kernel

/-- The part whose CURRENT key is lost: its cell 4 is torn. -/
def robbed : State := { stored with store := { stored.store with cells := stored.store.cells.set 4 .broken } }

/-- Slot 3 recorded with both keys, slot 4 not recorded; the cells erased, torn and held; a CURRENT key that is missing. -/
theorem witness_StartUpRebuildsTheSlots :
    stored.phase = .held ∧ stored.supply = true ∧ stored.rstn = true ∧ unrecorded stored.store.found (.slot 4) ∧
    latestIn stored.store.found (.slot 3) { page := 0, pos := 2, record := (Body.slot 3 staged).record 3 } ∧
    (((Body.slot 3 staged).record 3).body?.map (fun b => match b with
      | .slot i p => decide (i = 3 ∧ p.attrs ≠ none ∧ genNumber p.current = 1 ∧ genNumber p.pending = 2)
      | .ceil _ _ _ _ | .life _ _ | .tamper _ | .pagebad _ => false)) = some true ∧
    stored.store.keyCell 3 1 4 ∧ readCell stored.store.cells[(0 : Fin 48)] = .erased ∧
    readCell stored.store.cells[(5 : Fin 48)] = .broken ∧
    readCell stored.store.cells[(4 : Fin 48)] = .intact { slot := 3, gen := 1, key := 7 } ∧
    (robbed.toPart.replay.slot 3).applied.state = .empty := by
  refine ⟨by decide, by decide, by decide, by simp only [unrecorded]; decide +kernel, by simp only [latestIn]; decide +kernel,
    by decide +kernel, ⟨7, by decide +kernel, ?_⟩, by decide +kernel, by decide +kernel, by decide +kernel, by decide +kernel⟩
  have h : ∀ d : Fin 48, ((readCell stored.store.cells[d]).get?.all
      (fun k => decide (k.slot = 3 → k.gen = 1 → k.key = 7 ∧ 4 ≤ d))) = true := by decide +kernel
  intro d k hk
  have hd := h d
  rw [hk] at hd
  simpa [Reading.get?, slotByte] using hd

/-- A reset part whose latest record of slot 3 is the UNUSED one an UNLOAD of generation 7 leaves, over an older one. -/
def unloaded : State :=
  { State.reset with
    store := { State.reset.store with pages := State.reset.store.pages.set 0 (writtenPage
      [(Body.slot 3 staged).record 1, (Body.slot 3 { Pers.blank with highest := 7 }).record 2]) } }

/-- R58, R96: the highest generation seen outlives the reset, so a later LOAD_PLAIN does not number from 1 again. -/
theorem test_unused_slot_keeps_its_highest :
    after (step { unloaded with pending := [.startUp] }) (fun t => decide (t.slot 3 =
      { Slot.blank with applied := { Pers.blank with highest := 7 } })) = true := by decide +kernel

theorem witness_StartUpRebuildsTheSlots_unused :
    unloaded.phase = .held ∧ unloaded.supply = true ∧ unloaded.rstn = true ∧
    latestIn unloaded.store.found (.slot 3) { page := 0, pos := 1, record := (Body.slot 3 { Pers.blank with highest := 7 }).record 2 } ∧
    ((Body.slot 3 { Pers.blank with highest := 7 }).record 2).body? = some (.slot 3 { Pers.blank with highest := 7 }) := by
  simp only [latestIn]; decide +kernel

theorem witness_StartUpReopensWindows :
    stored.phase = .held ∧ stored.supply = true ∧ stored.rstn = true ∧
    latestIn stored.store.found (.ceil 3 1) { page := 0, pos := 3, record := (Body.ceil 3 1 257 256).record 4 } ∧
    ((Body.ceil 3 1 257 256).record 4).body? = some (.ceil 3 1 257 256) ∧
    ((Body.ceil 3 1 4294967295 256).record 4).body? = some (.ceil 3 1 4294967295 256) ∧
    { num := 1, cell := 4 } ∈ (stored.toPart.replay.slot 3).applied.gens ∧
    isGen (stored.toPart.replay.slot 3).applied.pending 2 = true ∧ isGen (stored.toPart.replay.slot 3).applied.pending 1 = false ∧
    (stored.toPart.replay.slot 3).applied.cls ≠ some .transport ∧ unrecorded stored.store.found (.ceil 3 3) := by
  simp only [latestIn, unrecorded]; decide +kernel

theorem witness_StartUpSamplesAndLeaves :
    run.phase ≠ .replayed ∧ stored.toPart.replay.phase = .replayed ∧ stored.toPart.replay.tamp = false ∧
    ({ stored with toPart := { stored.toPart.replay with tamp := true } } : State).tamp = true ∧
    ¬ (run.phase = .sampled ∨ run.phase = .replayed ∧ run.tamp = false) ∧
    (let s : State := { put (lastSpare 31 0) 3 (ready .shared 4) with phase := .sampled, windows := [win 17 17 .wanted] }
     s.phase = .sampled ∧ s.mode ≠ .failed ∧ s.spare = some 1 ∧ s.headFree = false ∧ s.oneHead ∧ s.window 3 1 = some (win 17 17 .wanted) ∧
     (s.slot 3).applied.issues 1 = true ∧ s.pfw = false ∧ (s.slot 3).zeroizing = false) ∧
    ((lastSpare 30 0).spare = some 1 ∧ (lastSpare 30 0).headFree = true) ∧
    ((noSpare 31).spare = none ∧ (noSpare 31).noRoom = true ∧ (noSpare 30).noRoom = false ∧ (noSpare 30).oldest = some 7 ∧
      ((noSpare 30).page 7).role = .closed) := by simp only [Part.oneHead]; decide +kernel

/-! ### Witnesses: the lines and the timebase -/

/-- A state with one job on the list. -/
def listed (s : State) (j : Job) : State := { headed s with jobs := [j] }

/-- A commit's job. -/
def stepOf (id : JobId) (n : Nat) : Job := { job id with commits := [(9, n)] }

/-- The commit of a LOAD_PLAIN of slot 5 that has this many steps verified. -/
def loading (verified : Nat) (key : Option Key) : State :=
  { await run 5 [{ change (.load (attrs .shared) 1 2 9) .mp false with ready := false }] with
    commits := [{ id := 9, kind := .load, slot := 5, gen := 1, cell := some 2, key := key, verified := verified, opened := true,
                  retried := false, firstAge := 1 }] }

/-- A lone command that awaits its record. -/
theorem witness_PowerFailGatesAndRefuses :
    let s := await (put run 3 staged) 3 [change (.activate 2) .np false]
    s.pfw = false ∧ s.phase = .running ∧ (s.slot 3).awaiting = [change (.activate 2) .np false] ∧
    (change (.activate 2) .np false).kind.commit? = none ∧ s.lifeChanges = [] ∧ s.windows = [] ∧
    (∀ j : Fin 16, j ≠ 3 → (s.slot j).awaiting = []) ∧ ({ run with pfw := true } : State).pfw = true ∧ State.reset.phase = .held := by
  decide +kernel

/-- A LOAD_PLAIN in its commit with an UNLOAD of the other port behind it; a RENEW in its commit; a SEAL; a request held on a queued
reservation: each alone at its port. -/
theorem witness_PowerFailGatesAndRefuses_replies :
    (let s := await (loading 0 none) 5 [unready (.load (attrs .shared) 1 2 9) .mp, change .unload .np false]
     s.pfw = false ∧ s.phase = .running ∧
     (s.slot 5).awaiting = [unready (.load (attrs .shared) 1 2 9) .mp, change .unload .np false] ∧
     (∀ j : Fin 16, j ≠ 5 → (s.slot j).awaiting = []) ∧ (unready (.load (attrs .shared) 1 2 9) .mp).kind.commit? = some 9 ∧
     (change .unload .np false).kind.commit? = none ∧ (s.commit 9).map Commit.cell = some (some 2) ∧ s.lifeChanges = [] ∧ s.windows = []) ∧
    (let s := await (put run 3 (ready .shared 4)) 3 [envChange (.renew false 2 60 2 9) false]
     (s.slot 3).awaiting = [envChange (.renew false 2 60 2 9) false] ∧ (envChange (.renew false 2 60 2 9) false).kind.commit? ≠ none ∧
     s.receiver.condemned = false ∧ (∀ j : Fin 16, j ≠ 3 → (s.slot j).awaiting = [])) ∧
    (let c : LifeChange := { target := .sealed, identity := some 5, waiter := { port := .mp, condemned := false }, taken := false }
     ({ run with lifeChanges := [c] } : State).lifeChanges = [c] ∧ run.windows = []) ∧
    (let h : Held := { waiter := { port := .np, condemned := false }, request := .chain 4 }
     let s := tagging { win 17 17 .queued with held := [h] }
     s.windows = [{ win 17 17 .queued with held := [h] }] ∧ s.lifeChanges = [] ∧ (∀ j : Fin 16, (s.slot j).awaiting = [])) := by
  decide +kernel

/-- The commit of a LOAD_PLAIN stops: its cell is released, and the UNLOAD behind it, now of an UNUSED slot, gets POWER_LOW as well. -/
theorem test_pfw_stops_a_commit :
    after (exec .pfwAsserted { await (loading 0 none) 5 [unready (.load (attrs .shared) 1 2 9) .mp, change .unload .np false] with
        cells := run.cells.set 2 (.used 5 1), jobs := [stepOf (.cellProgram 2) 1, stepOf (.ceil 5 1) 2, stepOf (.slot 5) 3] })
      (fun t => decide (t.commits = [] ∧ t.jobs.map Job.id = [.cellErase 2] ∧ t.cell 2 = .released (some (5, 1)) ∧
        (t.port .mp).job = .ready (reply [0x1E31]) ∧ (t.port .np).job = .ready (reply [0x1E32]))) = true := by decide +kernel

/-- At the release: a wanted window, one that has run low, one that has not, and one at the largest ceiling; a job to take first. -/
theorem witness_PowerFailGatesAndRefuses_released :
    (∀ w ∈ [win 17 17 .wanted, win 13 17 .none, win 12 17 .none, win 4294967294 4294967295 .none],
      let s : State := { tagging w with pfw := true }
      s.phase = .running ∧ s.mode ≠ .failed ∧ (s.slot 3).zeroizing = false ∧ s.window 3 1 = some w ∧
      (s.slot 3).applied.issues 1 = true) ∧
    (win 17 17 .wanted).reservation = .wanted ∧ 4 * (17 - 13) ≤ 16 ∧ ¬ 4 * (17 - 12) ≤ 16 ∧ ¬ 4294967295 < 4294967295 ∧
    ({ tagging (win 17 17 .wanted) with pfw := true } : State).pfw = true ∧ (tagging (win 17 17 .wanted)).pfw = false := by
  decide +kernel

/-- The two orders of R88: the reservation goes before the job that waited, or that job is in flight and the reservation behind it. -/
theorem test_release_in_either_order :
    let s : State := { headed (tagging (win 17 17 .wanted)) with jobs := [job .tamper], pfw := true, pending := [.pfwReleased] }
    after (step s) (fun t => decide (t.inFlight = none ∧ t.jobs.map Job.id = [.tamper, .ceil 3 1])) = true ∨
    after (step s) (fun t => decide (t.inFlight.map (fun f => f.job.id) = some .tamper ∧ t.jobs.map Job.id = [.ceil 3 1])) = true := by
  intro s
  show after (exec .pfwReleased { s with pending := [] }) _ = true ∨ after (exec .pfwReleased { s with pending := [] }) _ = true
  have h : exec .pfwReleased { s with pending := [] } = .next ({ s with pending := [] }.withPart
      (({ s.toPart with pfw := false } : Part).maybeTakeJob).placeAllWanted) := rfl
  rw [h]
  cases hc : Config.jobFirst s.draws
  · left; rw [show ({ s.toPart with pfw := false } : Part).maybeTakeJob = ({ s.toPart with pfw := false } : Part).draw by
      simp [Part.maybeTakeJob, hc]]; decide +kernel
  · right; rw [show ({ s.toPart with pfw := false } : Part).maybeTakeJob = (({ s.toPart with pfw := false } : Part).draw).takeJob by
      simp [Part.maybeTakeJob, hc]]; decide +kernel

/-- An expiry is not placed for a switch that only awaits (R138): count 0, the last ADOPT in flight, an ACTIVATE refused at PFW. -/
theorem test_pfw_places_no_expiry :
    let x := { switching with highest := 3, pending := some { num := 3, cell := 11 } }
    let s := await (put run 3 x) 3 [change (.adopt .mp 2) .mp true, change (.activate 3) .np false]
    after (step { s.withPart (s.setSlot 3 { s.slot 3 with graceLeft := some 0 }) with pending := [.pfwAsserted] })
      (fun t => decide ((t.slot 3).awaiting = [change (.adopt .mp 2) .mp true] ∧ t.onList (.slot 3) = false)) = true := by decide +kernel

/-- Due at 20 ms, across the wrap of the count; not due at 19. -/
theorem witness_TamperEventZeroizes :
    let s : State := { put run 3 (ready .shared 4) with tamp := true, debounce := some 0xFFFFFFFF }
    s.phase = .running ∧ s.cover = .closed ∧ s.tamp = true ∧ s.debounce = some 0xFFFFFFFF ∧ 20 ≤ ((19 : Count) - 0xFFFFFFFF).toNat ∧
    ¬ 20 ≤ ((18 : Count) - 0xFFFFFFFF).toNat ∧ (s.slot 3).zeroizing = false ∧ (s.slot 3).applied.gens ≠ [] ∧
    (s.slot 3).applied.attrs = some (attrs .shared) ∧ (attrs .shared).erase = true ∧ s.mode ≠ .failed := by decide +kernel

/-- An ADOPT, in flight or not, and an ACTIVATE behind it whose SLOT job waits, when the line has read active for 20 ms. -/
def struck (flies : Bool) : State :=
  { await (put run 3 (ready .shared 4)) 3 [change (.adopt .mp 1) .mp flies, change (.activate 2) .np false] with
    jobs := [job (.slot 3)], nextAge := 5, tamp := true, debounce := some 0 }

/-- R76: the zeroize joins the job behind the record in flight and keeps its age; where the list empties, the job leaves (R83). -/
theorem test_zeroize_joins_the_waiting_job :
    after (step { struck true with pending := [.tamperEvent 20] })
      (fun t => decide (t.jobs.map (fun j => (j.id, j.cls, j.age)) = [(.slot 3, 3, 1), (.tamper, 4, 5)])) = true ∧
    after (step { struck false with pending := [.tamperEvent 20] })
      (fun t => decide (t.jobs.map (fun j => (j.id, j.cls, j.age)) = [(.tamper, 4, 5), (.slot 3, 3, 6)])) = true := by decide +kernel

/-- The job that waits: with a record in flight, without, and one that is not there. -/
theorem witness_TamperEventZeroizes_jobs :
    (let s := struck true
     s.jobs = [job (.slot 3)] ∧ (job (.slot 3)).commits = [] ∧ (job (.slot 3)).age < s.nextAge ∧
     (s.slot 3).awaiting.any (fun c => c.taken) = true ∧ (s.slot 3).zeroizing = false) ∧
    ((struck false).slot 3).awaiting ≠ [] ∧ ((struck false).slot 3).awaiting.all (fun c => !c.taken) = true ∧
    run.onList (.slot 3) = false := by decide +kernel

/-- An UNUSED slot with a LOAD_PLAIN awaiting, an EMPTY one with a RENEW, one with a LOAD_PLAIN in flight; an envelope being checked. -/
theorem witness_TamperEventZeroizes_empty :
    (let s := await run 5 [unready (.load (attrs .shared) 1 2 9) .mp]
     (s.slot 5).zeroizing = false ∧ (s.slot 5).applied.gens = [] ∧ (s.slot 5).graceLeft = none ∧
     (s.projected 5).attrs = some (attrs .shared) ∧ (attrs .shared).erase = true ∧ s.windows = [] ∧ s.receiver.state ≠ .checking ∧
     (∀ l : Fin 16, l ≠ 5 → (s.slot l).awaiting = [])) ∧
    (let s := await empty 3 [envChange (.renew false 2 60 2 9) false]
     (s.slot 3).applied.gens = [] ∧ (s.projected 3).attrs = some (attrs .shared) ∧ s.receiver.condemned = false) ∧
    ((await run 5 [change (.load (attrs .shared) 1 2 9) .mp true]).slot 5).awaiting.any (fun c => c.taken) = true ∧
    (let s := receiving .checking (envBytes 0xFF 0 1 2)
     s.receiver.state = .checking ∧ (parseEnvelope s.receiver.bytes).map Envelope.slot = some 3 ∧ (s.slot 3).zeroizing = false ∧
     (s.slot 3).applied.gens ≠ [] ∧ (s.slot 3).applied.attrs = some (attrs .shared) ∧
     (∀ l : Fin 16, (s.slot l).awaiting = [])) := by decide +kernel

/-- Slot 3 SWITCHING with this much grace left. -/
def counting (n : Nat) : State :=
  run.withPart (run.setSlot 3 { run.slot 3 with applied := switching, graceLeft := some n })

theorem witness_GraceCountsDown :
    State.reset.phase = .held ∧ ({ run with phase := .sampled } : State).phase = .sampled ∧ (counting 0).phase = .running ∧
    ((counting 0).slot 3).graceLeft = some 0 ∧ ((counting 0).slot 3).zeroizing = false ∧
    ((counting 0).projected 3).outgoing ≠ none ∧ ((counting 0).slot 3).awaiting = [] ∧
    ¬ ((counting 1).slot 3).graceLeft = some 0 := by decide +kernel

/-- Each time at its end, and 1 ms before it. -/
theorem witness_ElapsedTimersEnd :
    State.reset.phase = .held ∧ run.phase = .running ∧
    ((chained (context .tag 4 0)).te.context .mp = some (context .tag 4 0) ∧ 500 ≤ ((500 : Count) - (context .tag 4 0).last).toNat ∧
      ((499 : Count) - (context .tag 4 0).last).toNat < 500 ∧ (chained (context .tag 4 0)).te.runningStep .mp = none) ∧
    (let s : State := { run with receiver := { Receiver.blank with state := .filling, fillTimer := some 0 } }
     s.receiver.state = .filling ∧ s.receiver.fillTimer = some 0 ∧ 2000 ≤ ((2000 : Count) - 0).toNat ∧
     ((1999 : Count) - 0).toNat < 2000) ∧
    (({ run with sealWindow := some (.mp, 0) } : State).sealWindow = some (.mp, 0) ∧ 10000 ≤ ((10000 : Count) - 0).toNat ∧
      ((9999 : Count) - 0).toNat < 10000) ∧
    (let s : State := { run with cover := .opened, debounce := some 0 }
     s.cover = .opened ∧ s.tamp = false ∧ s.debounce = some 0 ∧ 20 ≤ ((20 : Count) - 0).toNat ∧ ((19 : Count) - 0).toNat < 20) ∧
    (runs (chained (context .tag 4 0)) (.chainData [1]) .no).te.runningStep .mp = some (.chainData [1]) ∧
    (runs (chained (context .tag 4 0)) (.chainClose none) .no).te.runningStep .mp = some (.chainClose none) ∧
    ({ run with phase := .replayed } : State).phase = .replayed ∧ ({ run with phase := .sampled } : State).phase = .sampled ∧
    ({ run with cover := .opened, debounce := some 7 } : State).debounce = some 7 := by
  decide +kernel

/-! ### Witnesses: the program engine -/

/-- A job alone is the first. -/
theorem alone_first (j : Job) (s : State) (q : Job → Prop) :
    j ∈ (listed s j).jobs ∧ ∀ k ∈ (listed s j).jobs, (listed s j).takeable k = true → k = j ∨ q k := by simp [listed]

/-- Every kind of job alone on the list, and takeable; and an engine that takes none. -/
theorem witness_EngineTakesTheFirstJob :
    (∀ j s, ∀ q : Job → Prop, j ∈ (listed s j).jobs ∧ ∀ k ∈ (listed s j).jobs, (listed s j).takeable k = true → k = j ∨ q k) ∧
    ({ run with pfw := true } : State).pfw = true ∧ (fly (.cellErase 0)).inFlight ≠ none ∧ run.pfw = false ∧ run.phase = .running ∧
    run.inFlight = none ∧ run.jobs = [] ∧ (headed run).noRoom = false ∧ (headed run).mode ≠ .failed ∧
    (headed run).headPosition = some (0, 0) ∧
    ((listed (tagging (win 14 17 .queued)) (job (.ceil 3 1))).takeable (job (.ceil 3 1)) = true ∧
      (tagging (win 14 17 .queued)).window 3 1 = some (win 14 17 .queued)) ∧
    ((listed (loading 1 none) (stepOf (.ceil 5 1) 2)).takeable (stepOf (.ceil 5 1) 2) = true ∧
      ((loading 1 none).slot 5).awaiting =
        [{ kind := .load (attrs .shared) 1 2 9, ready := false, taken := false, source := .command { port := .mp, condemned := false } }]) ∧
    (listed (await (put run 3 staged) 3 [change (.activate 2) .np false]) (job (.slot 3))).takeable (job (.slot 3)) = true ∧
    (listed run (job .life)).takeable (job .life) = true ∧ (listed run (job .tamper)).takeable (job .tamper) = true ∧
    (listed run (job (.pagebad 7))).takeable (job (.pagebad 7)) = true ∧
    (let r := (Body.tamper 4).record 2
     let s : State := { run with
       store := stored.store, facts := [{ key := .tamper, page := 1, pos := 1, seq := 2 }], tamperCount := 4 }
     (listed s (job (.carry 1 1))).takeable (job (.carry 1 1)) = true ∧ (listed s (job (.carry 1 1))).liveAt 1 1 = true ∧
     readRecord (encodeRecord r) = .intact r) ∧
    (listed run (job (.pageErase 7))).takeable (job (.pageErase 7)) = true ∧ (run.page 7).erases < 100000 ∧
    (listed run (job (.header 7 .wear))).takeable (job (.header 7 .wear)) = true ∧
    ((listed run (job (.header 0 .both))).takeable (job (.header 0 .both)) = true ∧ ((headed run).page 0).seq = some 1) ∧
    ((listed (loading 0 (some 7)) (stepOf (.cellProgram 2) 1)).takeable (stepOf (.cellProgram 2) 1) = true ∧
      ((loading 0 (some 7)).commit 9).map Commit.key = some (some 7)) ∧
    (listed run (job (.cellErase 47))).takeable (job (.cellErase 47)) = true :=
  ⟨fun j s q => alone_first j s q, by decide +kernel⟩

/-- Two open commits, the one whose first step is older ahead (R78): the job is taken although it is the younger. -/
theorem test_older_commit_first :
    let m (k first : Nat) : Commit := { id := k, kind := .load, slot := 5, gen := 1, cell := some 2, key := none, verified := 2, opened := true,
                                        retried := false, firstAge := first }
    let a : Job := { job (.ceil 3 1) with age := 5, commits := [(9, 2)] }
    let b : Job := { job (.ceil 4 1) with age := 2, commits := [(8, 2)] }
    ({ headed run with commits := [m 9 1, m 8 2], jobs := [b, a] } : State).choose.map Job.id = some (.ceil 3 1) := by decide +kernel

theorem witness_EngineTakesTheFirstJob_open :
    let m (k first : Nat) : Commit := { id := k, kind := .load, slot := 5, gen := 1, cell := some 2, key := none, verified := 2, opened := true,
                                        retried := false, firstAge := first }
    let a : Job := { job (.ceil 3 1) with age := 5, commits := [(9, 2)] }
    let b : Job := { job (.ceil 4 1) with age := 2, commits := [(8, 2)] }
    let s : State := { headed run with commits := [m 9 1, m 8 2], jobs := [b, a] }
    s.takeable a = true ∧ s.takeable b = true ∧ a.cls = b.cls ∧
    (m 9 1 ∈ s.commits ∧ (m 9 1).opened = true ∧ ((m 9 1).id, 2) ∈ a.commits) ∧
    (∀ d ∈ s.commits, (d.id, 2) ∈ b.commits → (m 9 1).firstAge < d.firstAge) := by decide +kernel

/-- The oldest page, 7, is RETIRING and in reclaim, none of its records live; page 6 is the next oldest. -/
def retiring : State :=
  { ringOf (.head :: List.replicate 6 .closed ++ [.retiring]) 3 0 with facts := [], reclaim := some 7 }

/-- A step whose record is not live, with another step of its page behind it, with the head full, and the last of a RETIRING page. -/
theorem witness_EngineTakesTheFirstJob_passedOver :
    (∀ l ∈ [[job (.carry 7 0)], [job (.carry 7 0), { job (.carry 7 1) with age := 2 }]],
      let s : State := { retiring with jobs := l }
      s.takeable (job (.carry 7 0)) = true ∧ s.liveAt 7 0 = false ∧ s.noRoom = false ∧ s.mode ≠ .failed ∧ s.headFree = true ∧
      s.reclaim = some 7 ∧ (s.page 7).role = .retiring) ∧
    (retiring.pageGone 7).oldest = some 6 ∧ (retiring.page 6).role = .closed ∧
    (let s : State := { lastSpare 31 0 with facts := [], reclaim := some 7, jobs := [job (.carry 7 0)] }
     s.takeable (job (.carry 7 0)) = true ∧ s.liveAt 7 0 = false ∧ s.noRoom = false ∧ s.headFree = false ∧ s.spare = some 1 ∧ s.oneHead) ∧
    (let s : State := { noSpare 31 with facts := [], reclaim := some 7, jobs := [job (.carry 7 0)] }
     s.takeable (job (.carry 7 0)) = true ∧ s.noRoom = false ∧ s.headFree = false ∧ s.spare = none) := by
  simp only [Part.oneHead]; decide +kernel

/-- R63: the page is BAD with its content as it was, and the reclaim goes on with the next oldest. -/
theorem test_retiring_page_is_bad_without_an_erase :
    after (step { retiring with jobs := [job (.carry 7 0)], pending := [.peTakeJob] }) (fun t =>
      decide ((t.page 7).role = .bad ∧ t.reclaim = some 6 ∧ t.jobs.map Job.id = [.pageErase 6, .header 6 .wear]) &&
      t.store.pages[7] == retiring.store.pages[7]) = true := by decide +kernel

/-- The page at its erase limit; a RENEW with an UNLOAD and a LOAD_PLAIN behind it; and, in a ring that cannot make room, a reservation, a
change, an expiry and a LIFE change alone on the list. -/
theorem witness_EngineTakesTheFirstJob_room :
    (let s0 := noSpare 3
     let s : State := { s0.withPart (s0.modPage 7 (fun x => { x with erases := 100000 })) with
       reclaim := some 7, jobs := [job (.pageErase 7), job (.header 7 .wear)] }
     s.noRoom = false ∧ s.takeable (job (.pageErase 7)) = true ∧ s.takeable (job (.header 7 .wear)) = false ∧ s.mode ≠ .failed ∧
     100000 ≤ (s.page 7).erases ∧ s.headFree = true ∧ s.head ≠ some 7 ∧ (s.pageGone 7).oldest = some 6 ∧ (s.page 6).role = .closed) ∧
    (let s := await (put run 3 (ready .shared 4)) 3
       [envChange (.renew false 2 60 2 9) false, change .unload .mp false, unready (.load { attrs .shared with smin := 64 } 3 7 10) .np]
     (s.projected 3).attrs = some { attrs .shared with smin := 64 }) ∧
    (noSpare 31).noRoom = true ∧ (noSpare 31).mode ≠ .failed ∧ (noSpare 31).pfw = false ∧ (noSpare 31).phase = .running ∧
    (noSpare 31).inFlight = none ∧
    (∀ j ∈ [job (.ceil 3 1), job (.slot 3), job .life], ({ noSpare 31 with jobs := [j] } : State).jobs = [j] ∧ j.id.isRecord = true) ∧
    ({ put (noSpare 31) 3 (ready .shared 4) with windows := [win 17 17 .queued] } : State).window 3 1 = some (win 17 17 .queued) ∧
    ((await (put (noSpare 31) 3 staged) 3 [change (.activate 2) .np false]).slot 3).awaiting = [change (.activate 2) .np false] ∧
    ((await (put (noSpare 31) 3 switching) 3 [expiry false]).slot 3).awaiting = [expiry false] ∧
    (let c : LifeChange := { target := .sealed, identity := some 5, waiter := { port := .mp, condemned := false }, taken := false }
     ({ noSpare 31 with lifeChanges := [c] } : State).lifeChanges = [c] ∧ c.taken = false) := by decide +kernel

/-- A reservation with one request held, into a ceiling that admits it; the last position but one; a commit's first window. -/
theorem witness_VerifiedCeilingGrants :
    (let h : Held := { waiter := { port := .np, condemned := false }, request := .quick [] }
     let w : Window := { win 17 17 .inFlight with held := [h] }
     let s := flying (tagging w) (job (.ceil 3 1)) (.record 0 29 1 (.ceil 3 1 33 16))
     s.inFlight = some { job := job (.ceil 3 1), work := .record 0 29 1 (.ceil 3 1 33 16) } ∧ s.head = some 0 ∧
     (29 : Fin 31).val + 1 < 31 ∧ (job (.ceil 3 1)).commits = [] ∧ s.window 3 1 = some w ∧ w.reservation = .inFlight ∧
     w.exhausted = false ∧ w.t ≤ 33 ∧ w.t < maxCounter ∧ 33 ≤ maxCounter ∧ w.held[0]? = some h ∧
     (w.held.map (fun y => y.waiter.port)).Nodup ∧ h.waiter.condemned = false) ∧
    (flying (loading 1 none) (stepOf (.ceil 5 1) 2) (.record 0 0 1 (.ceil 5 1 17 16))).commit 9 ≠ none := by decide +kernel

/-- A condemned request is held before another: its value, 17, is consumed, and the other is issued 18 (R159, R37). -/
theorem witness_VerifiedCeilingGrants_condemned :
    let h : Held := { waiter := { port := .mp, condemned := true }, request := .quick [] }
    let w : Window := { win 17 17 .inFlight with held := [h, { waiter := { port := .np, condemned := false }, request := .quick [] }] }
    let s := flying (tagging w) (job (.ceil 3 1)) (.record 0 29 1 (.ceil 3 1 33 16))
    s.window 3 1 = some w ∧ w.held[0]? = some h ∧ (w.held.map (fun y => y.waiter.port)).Nodup ∧ h.waiter.condemned = true ∧
    after (exec (.recordProgramDone true) s) (fun t => decide (t.te.pendingOf .mp = none ∧ t.mp.job = .idle ∧
      t.te.pendingOf .np = some (.quickTag 3 1 18 []))) = true := by decide +kernel

theorem witness_VerifiedSlotAndLifeRecordsApply :
    (let s := flying (await (put run 3 staged) 3 [change (.activate 2) .np true]) (job (.slot 3))
       (.record 0 0 1 (.slot 3 (staged.fold (.activate 2))))
     s.head = some 0 ∧
     s.inFlight = some { job := job (.slot 3), work := .record 0 0 1 (.slot 3 (staged.fold (.activate 2))) } ∧
     (s.slot 3).armed = false ∧ (s.slot 3).awaiting.filter (fun x => x.taken) = [change (.activate 2) .np true] ∧
     staged.fold (.activate 2) = (s.slot 3).applied.fold (change (.activate 2) .np true).kind ∧
     ((s.slot 3).applied.gens.map Gen.num).Nodup ∧ ((s.slot 3).applied.gens.map Gen.cell).Nodup) ∧
    (let c : LifeChange := { target := .sealed, identity := some 5, waiter := { port := .mp, condemned := false }, taken := true }
     let s : State := { flying run (job .life) (.record 0 0 1 (.life .sealed (some 5))) with lifeChanges := [c] }
     s.head = some 0 ∧ s.inFlight = some { job := job .life, work := .record 0 0 1 (.life .sealed (some 5)) } ∧
     s.lifeChanges = [c] ∧ c.taken = true ∧ c.target = .sealed ∧ Lifecycle.sealed ≠ .blank) := by decide +kernel

/-- A slot's record in flight with these changes, slot 3 at `x` before it. -/
def carrying (x : Pers) (l : List Change) : State :=
  flying (await (put run 3 x) 3 l) (job (.slot 3)) (.record 0 0 1 (.slot 3 (foldAll x (l.filter (fun c => c.taken)))))

/-- An ACTIVATE and the ADOPTs that end its switch in one record; a RENEW; an expiry; an UNLOAD that removes a generation a chain uses; a
LOAD_PLAIN, and the tamper event that waited for it. -/
theorem witness_VerifiedSlotAndLifeRecordsApply_more :
    (∀ x l, (carrying x l).head = some 0 ∧ ((carrying x l).slot 3).applied = x ∧
      ((carrying x l).slot 3).awaiting.filter (fun c => c.taken) = l.filter (fun c => c.taken)) ∧
    (let l := [change (.activate 2) .np true, change (.adopt .np 2) .np true, change (.adopt .mp 2) .mp true]
     l.filter (fun c => c.taken) = l ∧ l = [] ++ change (.activate 2) .np true :: l.drop 1 ∧
     (foldAll staged l).outgoing = none) ∧
    (let l := [envChange (.renew false 2 60 9 5) true]
     l.filter (fun c => c.taken) = l ∧ (foldAll (ready .shared 4) l).gens.map Gen.num = [1, 2] ∧
     (carrying (ready .shared 4) l).window 3 2 = none ∧ (carrying (ready .shared 4) l).receiver.condemned = false ∧
     (attrs .shared).cls ≠ .transport ∧ 1 ≤ (attrs .shared).smin) ∧
    (switching.view .mp = some .outgoing ∧ switching.outgoing ≠ none ∧ (expiry true).kind = .expiry) ∧
    (let l := [change .unload .np true]
     let s : State := { carrying (ready .shared 4) l with te := (chained (context .tag 4 0)).te }
     (foldAll (ready .shared 4) l).gens = [] ∧ s.te.run = none ∧ s.te.context .mp = some (context .tag 4 0) ∧
     (s.withPart (s.setCell 4 (.used 3 1))).cell 4 = .used 3 1) ∧
    (let l := [change (.load (attrs .shared) 1 9 5) .np true]
     let s := carrying .blank l
     ((s.withPart (s.setSlot 3 { s.slot 3 with armed := true })).slot 3).armed = true ∧ (foldAll .blank l).gens ≠ [] ∧
     (foldAll .blank l).attrs = some (attrs .shared)) := by
  refine ⟨fun x l => ⟨rfl, by simp [carrying, flying, headed, await, put, Part.slot, Part.modPage, Part.setSlot, State.withPart],
    by simp [carrying, flying, headed, await, put, Part.slot, Part.modPage, Part.setSlot, State.withPart]⟩, ?_⟩
  decide +kernel

/-- An expiry, the ACTIVATE behind it and an ADOPT of the port that the expiry moved; the expiry moves no view of the other port. -/
theorem witness_VerifiedSlotAndLifeRecordsApply_forced :
    let x : Pers := { switching with highest := 3, pending := some { num := 3, cell := 10 }, onCommand := true }
    let l := [expiry true, change (.activate 3) .np true, change (.adopt .mp 3) .mp true]
    l.filter (fun c => c.taken) = l ∧ l = [] ++ expiry true :: l.drop 1 ∧ (expiry true).kind = .expiry ∧
    x.view .mp = some .outgoing ∧ x.outgoing ≠ none ∧ x.view .np = some .current ∧ (carrying x l).phase = .running ∧
    ((carrying x l).slot 3).armed = false ∧
    after (exec (.recordProgramDone true) (carrying x l)) (fun t => decide (t.mp.events.forced = some 0x0008 ∧
      t.np.events.forced = none)) = true := by decide +kernel

/-- R136: both ADOPTs in one record, the second retires; R18, R12: an UNLOAD verified beneath ZEROIZING, then the zeroize record. -/
theorem test_changes_share_a_record :
    (let l := [change (.adopt .mp 2) .mp true, change (.adopt .np 2) .np true]
     after (exec (.recordProgramDone true) (carrying { switching with npView := some .outgoing } l)) (fun t => decide (
       t.mp.job = .ready { words := [0x0025, 0x0300, 2, 0x0100], maker := .plain } ∧
       t.np.job = .ready { words := [0x0025, 0x0300, 2, 0x0101], maker := .plain })) = true) ∧
    (let z : Change := { kind := .zeroize, ready := true, taken := false, source := .part }
     let s := carrying (ready .shared 4) [change .unload .np true, z]
     after (exec (.recordProgramDone true) (s.withPart (s.modSlot 3 (fun x => { x with zeroizing := true })))) (fun t =>
       decide ((t.slot 3).state = .zeroizing ∧ (t.slot 3).applied = { Pers.blank with highest := 1 } ∧ (t.slot 3).awaiting = [z]) &&
       after (exec .peTakeJob { t with jobs := t.jobs.filter (fun j => j.id == .slot 3) }) (fun t =>
         after (exec (.recordProgramDone true) t) (fun t => decide ((t.slot 3).state = .unused)))) = true) := by decide +kernel

/-- The kept window of the generation an ACTIVATE makes CURRENT; a request held on the window of a generation an UNLOAD removes. -/
theorem witness_VerifiedSlotAndLifeRecordsApply_windows :
    (let l := [change (.activate 2) .np true]
     let w : Window := { win 1 17 .none with gen := 2 }
     let s : State := { carrying staged l with windows := [win 3 17 .none, w] }
     s.window 3 2 = some w ∧ (foldAll staged l).issues 2 = true ∧ staged.issues 2 = false ∧ (foldAll staged l).issues 1 = true ∧
     staged.issues 1 = true ∧ s.window 3 1 = some (win 3 17 .none) ∧ w.reservation = .none) ∧
    (let l := [change .unload .np true]
     let h : Held := { waiter := { port := .mp, condemned := false }, request := .quick [] }
     let w : Window := { win 17 17 .queued with held := [h] }
     let s : State := { carrying (ready .shared 4) l with windows := [w] }
     s.window 3 1 = some w ∧ (foldAll (ready .shared 4) l).gens = [] ∧ h ∈ w.held ∧ s.windows = [w] ∧
     (∀ x ∈ l, x.source ≠ .command { port := .mp, condemned := false } ∧ x.source ≠ .envelope)) := by decide +kernel

/-- The last live record of a RETIRING page is carried. -/
theorem witness_VerifiedJobsUpdateTheTables_retiring :
    let r := (Body.life .sealed (some 0x0102030405060708)).record 9
    let s : State := { fliesOn retiring (job (.carry 7 0)) (.carry 0 3 r) with facts := [{ key := .life, page := 7, pos := 0, seq := 1 }] }
    s.headFree = true ∧ s.head = some 0 ∧ r.key? = some .life ∧ s.reclaim = some 7 ∧ (s.page 7).role = .retiring ∧ s.jobs = [] ∧
    s.mode ≠ .failed ∧ (s.pageGone 7).oldest = some 6 ∧ (s.page 6).role = .closed ∧
    after (exec (.carryForwardDone true) s) (fun t => decide ((t.page 7).role = .bad ∧ t.onList (.pageErase 7) = false ∧
      t.reclaim = some 6 ∧ t.facts = [{ key := .life, page := 0, pos := 3, seq := 9 }])) = true := by decide +kernel

/-- R52, R142: a failed erase makes the cell BAD and leaves the key in it. -/
theorem test_failed_cell_erase_keeps_the_key :
    let s := fly (.cellErase 4)
    let x := encodeCell { slot := 3, gen := 1, key := 7 }
    let u : State := { s with store := { s.store with cells := s.store.cells.set 4 x }, pending := [.cellEraseDone false] }
    after (step u) (fun t => decide (t.cell 4 = .bad) && t.store.cells[4] == x) = true := by decide +kernel

/-- R51: the program of a commit that has stopped fails, and its queued erase runs: the cell is BAD and stays so (log entry 40). -/
theorem test_stopped_commit_leaves_the_cell_bad :
    let s := flying run (stepOf (.cellProgram 2) 1) (.cellProgram 2 5 1 7)
    let u : State := { s with cells := s.cells.set 2 (.released (some (5, 1))), jobs := [job (.cellErase 2)] }
    after (exec (.cellProgramDone false) u) (fun t => decide (t.cell 2 = .bad ∧ t.onList (.cellErase 2) = true) &&
      after (exec .peTakeJob t) (fun t => after (exec (.cellEraseDone true) t) (fun t =>
        decide (t.cell 2 = .bad ∧ t.onList (.cellErase 2) = false)))) = true := by decide +kernel

/-- The last position with a spare, with a reclaim to begin and without room; a wear stamp with the head full, at the last of the ring's
pages and before it. -/
theorem witness_VerifiedJobsUpdateTheTables_ring :
    (let s := fliesOn (lastSpare 30 0) (job .tamper) (.record 0 30 1 (.tamper 1))
     s.inFlight = some { job := job .tamper, work := .record 0 30 1 (.tamper 1) } ∧ s.head = some 0 ∧ s.mode ≠ .failed ∧ s.oneHead ∧
     s.spare = some 1 ∧ s.reserve = none ∧ s.reclaim = none ∧ s.closeHead.oldest = some 7) ∧
    (let s : State := { fliesOn (noSpare 30) (job .tamper) (.record 0 30 1 (.tamper 1)) with jobs := [job .life] }
     s.head = some 0 ∧ s.phase = .running ∧ s.mode ≠ .failed ∧ s.oneHead ∧ (job .life).id.isRecord = true ∧
     ({ (s.storeAt 0 30 (encodeRecord ((Body.tamper 1).record 1))) with
        inFlight := none, pages := s.pages.set 0 { s.page 0 with used := 31 },
        facts := s.facts.filter (fun f => f.key != .tamper) ++ [{ key := .tamper, page := 0, pos := 30, seq := 1 }] } : Part).noRoom = true) ∧
    (let s (n : Nat) : State := { fliesOn (noSpare 31) (job (.header 7 .wear)) (.header 7 (some 1) none) with fullReclaims := n }
     (s 6).headFree = false ∧ (s 6).mode ≠ .failed ∧ ((s 6).page 7).role ≠ .head ∧ (s 6).oneHead ∧
     (let u : Part := { (noSpare 31).toPart with
        pages := (noSpare 31).pages.set 7 { (noSpare 31).page 7 with role := .spare, seq := none, used := 0, failed := 0 } }
      u.ringSize = 7 ∧ u.spare = some 7)) := by simp only [Part.oneHead]; decide +kernel

theorem witness_VerifiedJobsUpdateTheTables :
    (∀ w ∈ [Work.carry 0 0 ((Body.tamper 4).record 2), .header 7 (some 1) none, .header 0 none (some 1), .header 0 (some 1) (some 1),
        .pageErase 7, .cellErase 47], (fly w).headFree = true ∧ (fly w).inFlight = some { job := job (.slot 3), work := w }) ∧
    ((fly (.cellErase 0)).page 1).role ≠ .retiring ∧ (fly (.cellErase 0)).head = some 0 ∧
    ((Body.tamper 4).record 2).key? = some .tamper ∧ ((fly (.cellErase 0)).page 7).role ≠ .head ∧
    (let s := flying (loading 0 none) (stepOf (.cellProgram 2) 1) (.cellProgram 2 5 1 7)
     s.headFree = true ∧ s.inFlight.map InFlight.job = some (stepOf (.cellProgram 2) 1) ∧ (stepOf (.cellProgram 2) 1).commits = (9, 1) :: [] ∧
     s.commit 9 ≠ none) := by decide +kernel

/-- A first failed position, the last but one; the stamps and the erase; a cell's first failure and its second; a cell erase. -/
theorem witness_FailedJobsAreHandled :
    ((fly (.record 0 29 1 (.tamper 1))).page 0).failed = 0 ∧ (fly (.record 0 29 1 (.tamper 1))).mode ≠ .failed ∧
    (29 : Fin 31).val + 1 < 31 ∧
    (fly (.header 0 (some 1) (some 1))).inFlight = some { job := job (.slot 3), work := .header 0 (some 1) (some 1) } ∧
    (let s := flying (loading 0 none) (stepOf (.cellProgram 2) 1) (.cellProgram 2 5 1 7)
     s.headFree = true ∧ s.inFlight = some { job := stepOf (.cellProgram 2) 1, work := .cellProgram 2 5 1 7 } ∧
     (s.commit 9).map Commit.retried = some false ∧ (s.setCell 2 .bad).freeCell = some 0 ∧ s.pfw = false ∧
     (s.slot 5).awaiting =
       [{ kind := .load (attrs .shared) 1 2 9, ready := false, taken := false, source := .command { port := .mp, condemned := false } }]) ∧
    (fly (.cellErase 47)).inFlight = some { job := job (.slot 3), work := .cellErase 47 } := by decide +kernel

/-- R93: a failed stamp, and a failed erase, leave a page owed an erase; a PAGEBAD record that lists the page makes it BAD. -/
theorem test_failed_page_is_owed_an_erase :
    (∀ x ∈ [(Work.header 7 (some 1) none, Instr.headerProgramDone false true), (.header 7 none (some 2), .headerProgramDone true false),
        (.header 7 (some 1) (some 2), .headerProgramDone true false), (.pageErase 7, .pageEraseDone false)],
      after (step { fly x.1 with pending := [x.2] }) (fun t =>
        (t.store.pages[7]).role false == .closed && (t.store.pages[7]).role true == .bad && (t.store.pages[7]).seq?.isNone) = true) := by
  decide +kernel

/-- The last position and a second failed position; a new head's stamp and a reclaim's erase; a RENEW's second failure; a stopped commit. -/
theorem witness_FailedJobsAreHandled_ring :
    (let s := fliesOn (lastSpare 30 0) (job .tamper) (.record 0 30 1 (.tamper 1))
     s.head = some 0 ∧ s.oneHead ∧ s.spare = some 1 ∧ s.mode ≠ .failed ∧ s.pfw = false ∧ (s.page 0).failed = 0) ∧
    (let s := fliesOn (ringOf [.head, .spare] 5 1) (job .tamper) (.record 0 5 1 (.tamper 1))
     s.head = some 0 ∧ s.oneHead ∧ s.spare = some 1 ∧ (s.page 0).failed ≠ 0 ∧ 6 ≤ s.usable ∧ s.reserve ≠ none) ∧
    (let s := fliesOn (ringOf [.head, .spare] 0 0) (job (.header 0 .sequence)) (.header 0 none (some 8))
     s.head = some 0 ∧ s.oneHead ∧ s.mode ≠ .failed ∧ 6 ≤ s.usable ∧ s.spare = some 1) ∧
    (let s := fliesOn (noSpare 3) (job (.pageErase 7)) (.pageErase 7)
     s.headFree = true ∧ s.head ≠ some 7 ∧ (s.pageGone 7).oldest = some 6 ∧ (s.page 6).role = .closed) ∧
    (let m : Commit := { id := 9, kind := .renew, slot := 3, gen := 2, cell := some 2, key := none, verified := 0, opened := true,
                         retried := true, firstAge := 1 }
     let s : State := { fliesOn (await (put (ringOf [.head, .spare] 3 0) 3 (ready .shared 4)) 3 [envChange (.renew false 2 60 2 9) false])
       (stepOf (.cellProgram 2) 1) (.cellProgram 2 3 2 7) with commits := [m] }
     s.headFree = true ∧ s.commit 9 = some m ∧ s.pfw = false ∧ s.receiver.condemned = false ∧
     (s.slot m.slot).awaiting = [envChange (.renew false 2 60 2 9) false]) ∧
    (fliesOn (ringOf [.head, .spare] 3 0) (stepOf (.cellProgram 2) 1) (.cellProgram 2 3 2 7)).commit 9 = none := by
  simp only [Part.oneHead]; decide +kernel

/-- A RENEW's commit whose SLOT record is in flight at the head's last position, in a slot that a tamper event has made ZEROIZING. -/
def returning : State :=
  let m : Commit := { id := 9, kind := .renew, slot := 3, gen := 2, cell := some 2, key := none, verified := 2, opened := true,
                      retried := false, firstAge := 1 }
  let s := await (put (lastSpare 30 0) 3 (ready .shared 4)) 3
    [envChange (.renew false 2 60 2 9) true, { kind := .zeroize, ready := true, taken := false, source := .part }]
  let z := s.withPart (s.modSlot 3 (fun x => { x with zeroizing := true }))
  { fliesOn z (stepOf (.slot 3) 3) (.record 0 30 1 (.slot 3 staged)) with commits := [m], jobs := [{ job (.slot 3) with age := 7 }] }

/-- R83: the commit stops, and the job that stays for the zeroize, in its old place, is a step of it no longer. -/
theorem test_returning_step_leaves_its_commit :
    after (step { returning with pending := [.recordProgramDone false] }) (fun t =>
      decide ((t.commit 9).isNone = true ∧ (t.slot 3).awaiting.map Change.kind = [.zeroize]) &&
      (t.jobs.filter (fun j => j.id == .slot 3)).map (fun j => (j.age, j.commits)) == [(1, [])]) = true := by decide +kernel

theorem witness_FailedJobsAreHandled_returning :
    returning.inFlight = some { job := stepOf (.slot 3) 3, work := .record 0 30 1 (.slot 3 staged) } ∧
    returning.head = some 0 ∧ returning.oneHead ∧ returning.spare = some 1 ∧ returning.mode ≠ .failed ∧ returning.pfw = false ∧
    (returning.page 0).failed = 0 ∧ (stepOf (.slot 3) 3).id = .slot 3 ∧ (returning.slot 3).zeroizing = true ∧
    (∃ y ∈ (returning.slot 3).awaiting, y.kind = .zeroize) ∧ envChange (.renew false 2 60 2 9) true ∈ (returning.slot 3).awaiting ∧
    (envChange (.renew false 2 60 2 9) true).kind.commit? = some 9 ∧ returning.commit 9 ≠ none := by
  simp only [Part.oneHead]; decide +kernel

/-- The least and the greatest S_cur and S_min, and a demand within its bound. -/
theorem witness_StrideStages : 16 = 2 ^ 4 ∧ 65536 = 2 ^ 16 ∧ 4096 = 2 ^ 12 ∧ 6144 ≤ 2 ^ 64 ∧ 1024 * 120 ≤ 6144 * max 20 1 := by decide

/-! ### Witnesses: what is kept -/

/-- R184: a stamp under another marker is intact, one with a bit of its number changed is broken. -/
theorem test_stamp_is_judged_by_its_check_word :
    readStamp (encodeStamp 0x00 7) = .intact 7 ∧
    readStamp (.bytes (seqMarker :: toBytes 4 6 ++ (withCheck (seqMarker :: toBytes 4 7 ++ List.replicate 9 0)).drop 5)) = .broken := by
  decide +kernel

/-- R98: an intact cell whose slot byte no slot has is not bound, and its erase is placed. -/
theorem test_cell_of_no_slot_is_released :
    let k : KeyCell := { slot := 16, gen := 1, key := 7 }
    readCell (encodeCell k) = .intact k ∧
    (let s : State := { stored with store := { stored.store with cells := stored.store.cells.set 8 (encodeCell k) } }
     s.toPart.replay.cell 8 = .released (some (16, 1)) ∧ s.toPart.replay.onList (.cellErase 8) = true) := by decide +kernel

theorem witness_StoredItemsReadBack :
    2 ^ 32 - 1 < 2 ^ 32 ∧ (∀ n ∈ [16, 32, 64], (List.replicate n (0 : Byte)).length = n ∧ ∃ x ∈ List.replicate n (0 : Byte), x ≠ 0xFF) ∧
    (let r := (Body.ceil 15 65535 (2 ^ 32 - 1) (2 ^ 16)).record 1
     r.seq < 2 ^ 32 ∧ 1 ≤ r.kind.toNat ∧ r.kind.toNat ≤ 5 ∧ r.payload.length = 24) ∧
    (Lifecycle.blank = .blank ↔ (none : Option Ident) = none) ∧
    staged.attrs = some (attrs .shared) ∧ (attrs .shared).smin = 2 ^ 4 ∧ (attrs .shared).label.length ≤ 6 ∧
    (attrs .shared).grace < 65536 ∧ staged.highest < 65536 ∧ (∀ g ∈ staged.gens, 1 ≤ g.num ∧ g.num < 65536) := by decide +kernel

theorem witness_OnlyOutcomesWriteTheStore :
    (∃ t, exec (.nop .mp []) run = .next t) ∧ (Instr.nop .mp []).isOutcome = false ∧ run.inFlight = none ∧
    (∃ t, exec (.cellEraseDone true) (fly (.cellErase 47)) = .next t) ∧ (Work.cellErase 47).cell? ≠ some 0 :=
  ⟨⟨_, rfl⟩, rfl, rfl, ⟨_, rfl⟩, by decide⟩

/-- A command that leaves the mode, and one that makes it fall. -/
theorem witness_StoreModeOnlyFalls :
    (∃ t, exec (.nop .mp []) run = .next t) ∧ (Instr.nop .mp []).isReset = false ∧
    after (exec .peTakeJob { noSpare 31 with jobs := [job .tamper] }) (fun t => decide (t.mode = .failed)) = true ∧
    (noSpare 31).mode = .normal ∧ (noSpare 31).phase = .running ∧ (Instr.peTakeJob).isReset = false :=
  ⟨⟨_, rfl⟩, by decide +kernel⟩

/-- A step in which an applied state moves, and one in which the tamper count does. -/
theorem witness_AppliedStateMovesOnlyWithRecords :
    after (exec (.recordProgramDone true) (flying (await (put run 3 staged) 3 [change (.activate 2) .np true]) (job (.slot 3))
        (.record 0 0 1 (.slot 3 (staged.fold (.activate 2)))))) (fun t => decide ((t.slot 3).applied ≠ staged)) = true ∧
    after (exec (.tamperEvent 20) { run with tamp := true, debounce := some 0 }) (fun t => decide (t.tamperCount ≠ 0)) = true ∧
    (Instr.recordProgramDone true).isReset = false ∧ (Instr.tamperEvent 20).isReset = false := by decide +kernel

theorem witness_WindowsStayBounded :
    (tagging (win 1 17 .none)).windowsBounded ∧
    (∃ t, step (tagging (win 1 17 .none)) = .next t ∧ t.window 3 1 = some (win 1 17 .none)) ∧ (lastSpare 30 0).oneHead := by
  refine ⟨⟨by decide, ?_⟩, ⟨_, rfl, by decide +kernel⟩, by unfold Part.oneHead; decide +kernel⟩
  intro w hw
  have : w = win 1 17 .none := by simpa [tagging] using hw
  subst this
  exact ⟨⟨.inl (by decide), by decide⟩, fun f h => nomatch h⟩

end Sys2Proof.Tests
end

section
/-! SUPPORT. The stride of a reservation (R32 to R35): each stage of the model's computation as one equation, and the exponent each stage
gives when S_cur and S_min are powers of two. -/

namespace Sys2Proof.Machine

/-! ### Stage 1, demand (R33) -/

theorem demand_of_not_rateKnown (c delta sCur : Nat) : demand false c delta sCur = sCur := rfl

theorem demand_of_rateKnown (c delta sCur : Nat) : demand true c delta sCur = (c * 120) ⌈/⌉ max delta 1 := by
  have hdelta : 1 ≤ max delta 1 := le_max_right _ _
  rw [Nat.ceilDiv_eq_add_pred_div, Nat.add_sub_assoc hdelta]
  rfl

/-- Rounding up gives the least demand whose values, over the elapsed seconds, cover those used over 120 seconds. -/
theorem demand_le_iff (c delta sCur q : Nat) : demand true c delta sCur ≤ q ↔ c * 120 ≤ q * max delta 1 := by
  rw [demand_of_rateKnown, ceilDiv_le_iff_le_mul (lt_max_of_lt_right Nat.one_pos), Nat.mul_comm q]

theorem demand_of_unused (delta sCur : Nat) : demand true 0 delta sCur = 0 :=
  Nat.le_zero.mp ((demand_le_iff 0 delta sCur 0).mpr (by simp))

/-! ### Stages 2 to 4, power of two, rate limit and floor (R34) -/

/-- Doubling from `2 ^ i` stops at the least power of two that is at least `n`, or when the fuel ends. -/
theorem powerAtLeast_two_pow (n fuel i : Nat) :
    powerAtLeast n fuel (2 ^ i) = 2 ^ max i (min (Nat.clog 2 n) (i + fuel)) := by
  induction fuel generalizing i with
  | zero => simp [powerAtLeast]
  | succ fuel ih =>
    have reached : n ≤ 2 ^ i ↔ Nat.clog 2 n ≤ i := (Nat.clog_le_iff_le_pow Nat.one_lt_two).symm
    rw [powerAtLeast, ← Nat.pow_succ', ih]
    split
    next h => congr 1; have := reached.mp h; omega
    next h => congr 1; have := mt reached.mpr h; omega

/-- The exponent of stage 2: the fuel of the model lets it pass no further than 64. -/
def demandExponent (q : Nat) : Nat := min (Nat.clog 2 (max q 1)) 64

theorem powerAtLeast_demand (q : Nat) : powerAtLeast (max q 1) 64 1 = 2 ^ demandExponent q := by
  simpa [demandExponent] using powerAtLeast_two_pow (max q 1) 64 0

/-- A demand of at most `2 ^ 64` is reached before the fuel ends. -/
theorem demandExponent_eq_clog {q : Nat} (hq : q ≤ 2 ^ 64) : demandExponent q = Nat.clog 2 (max q 1) :=
  min_eq_left (Nat.clog_le_of_le_pow (max_le hq Nat.one_le_two_pow))

theorem limited_eq (q sCur smin : Nat) :
    limited q sCur smin = max (min (max (2 ^ demandExponent q) (sCur / 4)) (4 * sCur)) smin := by
  rw [limited, powerAtLeast_demand, Nat.mul_comm sCur]

theorem two_pow_max (m n : Nat) : 2 ^ max m n = max (2 ^ m) (2 ^ n) :=
  (pow_right_mono₀ one_le_two).map_max

theorem two_pow_min (m n : Nat) : 2 ^ min m n = min (2 ^ m) (2 ^ n) :=
  (pow_right_mono₀ one_le_two).map_min

theorem limited_two_pow (q b : Nat) {a : Nat} (ha : 2 ≤ a) :
    limited q (2 ^ a) (2 ^ b) = 2 ^ max (min (max (demandExponent q) (a - 2)) (2 + a)) b := by
  have quarter : 2 ^ a / 4 = 2 ^ (a - 2) := Nat.pow_div ha Nat.two_pos
  have fourfold : 4 * 2 ^ a = 2 ^ (2 + a) := (Nat.pow_add 2 2 a).symm
  rw [limited_eq, quarter, fourfold, two_pow_max, two_pow_min, two_pow_max]

/-! ### Stages 5 to 7, wear, cap and ceiling (R35) -/

theorem capped_of_degraded (r wear : Nat) : capped r wear .degraded = 65536 := rfl

theorem capped_of_not_degraded (r wear : Nat) {mode : StoreMode} (h : mode ≠ .degraded) :
    capped r wear mode = min (r * 2 ^ wear) 65536 := if_neg h

/-- The cap keeps a power of two of at least 16 one from 16 to 65,536, in every mode and at every wear level. -/
theorem capped_two_pow {m : Nat} (hm : 4 ≤ m) (wear : Nat) (mode : StoreMode) :
    ∃ k, 4 ≤ k ∧ k ≤ 16 ∧ capped (2 ^ m) wear mode = 2 ^ k := by
  by_cases h : mode = .degraded
  · subst h
    exact ⟨16, by decide, le_rfl, capped_of_degraded _ _⟩
  · refine ⟨min (m + wear) 16, by omega, min_le_right _ _, ?_⟩
    have cap : 65536 = 2 ^ 16 := rfl
    rw [capped_of_not_degraded _ _ h, two_pow_min, Nat.pow_add, cap]

theorem newCeiling_eq (p stride : Nat) : newCeiling p stride = min (p + stride) 4294967295 := rfl

theorem Window.stride_eq (w : Window) (now : Count) (smin wear : Nat) (mode : StoreMode) :
    w.stride now smin wear mode =
      capped (limited (demand w.rateKnown (w.t - w.grantCounter) (now - w.grantTime).toNat w.sCur) w.sCur smin) wear mode := rfl

/-- S_min alone keeps a stride at 16 or more; S_cur at 4 or more lets the quarter of the rate limit be a power of two. -/
theorem Window.stride_two_pow {w : Window} {smin a b : Nat} (ha : 2 ≤ a) (hw : w.sCur = 2 ^ a) (hb : 4 ≤ b) (hs : smin = 2 ^ b)
    (now : Count) (wear : Nat) (mode : StoreMode) : ∃ k, 4 ≤ k ∧ k ≤ 16 ∧ w.stride now smin wear mode = 2 ^ k := by
  rw [w.stride_eq, hw, hs, limited_two_pow _ _ ha]
  exact capped_two_pow (le_max_of_le_right hb) wear mode

/-! ### The statement -/

/-- Settles O55, stage by stage: rounding up as a Galois connection, doubling as the ceiling of the logarithm to base 2, and the limits as
limits on the exponent. -/
theorem strideStages : Obligations.StrideStages := by
  refine ⟨fun c delta sCur => ?demand, fun q sCur smin hq => ?limited, fun r wear => ?capped, newCeiling_eq,
    fun w now smin wear mode a b => ?stride⟩
  case demand =>
    exact ⟨demand_of_not_rateKnown .., demand_of_unused .., (demand_le_iff ..).mp le_rfl, fun q => (demand_le_iff ..).mpr⟩
  case limited =>
    refine ⟨Nat.clog 2 (max q 1), Nat.le_pow_clog Nat.one_lt_two _, fun m => Nat.clog_le_of_le_pow, ?_⟩
    rw [limited_eq, demandExponent_eq_clog hq]
  case capped => exact ⟨capped_of_not_degraded r wear (by decide), capped_of_degraded r wear⟩
  case stride =>
    exact ⟨w.stride_eq .., fun ha _ hw hb _ hs => Window.stride_two_pow (by omega) hw hb hs now wear mode⟩

end Sys2Proof.Machine
end

section
/-! SUPPORT. The context of a port in the tag engine (R151, R153, R156). Each of the two places holds a context of one of the two ports or
none, so looking a context up and discarding it are each a filter on the places by the context's port. -/

namespace Sys2Proof.Machine

/-! ### What a place holds for a port -/

/-- The context a place holds, if it is the port's. -/
def heldFor (p : Port) (o : Option Context) : Option Context := o.filter (fun x => x.port = p)

@[simp] theorem heldFor_none (p : Port) : heldFor p none = none := rfl

@[simp] theorem heldFor_some (p : Port) (x : Context) : heldFor p (some x) = if x.port = p then some x else none := by
  simp [heldFor, Option.filter]

@[simp] theorem heldFor_heldFor (p : Port) (o : Option Context) : heldFor p (heldFor p o) = heldFor p o := by simp [heldFor]

/-- No context is both ports'. -/
@[simp] theorem heldFor_heldFor_other (p : Port) (o : Option Context) : heldFor p (heldFor p.other o) = none := by
  cases o with
  | none => rfl
  | some x => cases hx : x.port <;> cases p <;> simp [hx, Port.other]

/-- A place looked up for a port, before what stands in for it. -/
theorem ite_ownedBy (p : Port) (o e : Option Context) : (if ownedBy p o then o else e) = (heldFor p o).or e := by
  cases o with
  | none => rfl
  | some x => by_cases hx : x.port = p <;> simp [ownedBy, hx]

/-- A place that a port's context is discarded from keeps what it holds for the other port. -/
theorem ite_ownedBy_none (p : Port) (o : Option Context) : (if ownedBy p o then none else o) = heldFor p.other o := by
  cases o with
  | none => rfl
  | some x => cases hx : x.port <;> cases p <;> simp [ownedBy, hx, Port.other]

/-! ### The context looked up and discarded -/

theorem TagEngine.context_eq (t : TagEngine) (p : Port) : t.context p = (heldFor p t.live).or (heldFor p t.parked) := by
  rw [TagEngine.context, ite_ownedBy, ite_ownedBy, Option.or_none]

theorem TagEngine.dropContext_eq (t : TagEngine) (p : Port) :
    t.dropContext p = { t with live := heldFor p.other t.live, parked := heldFor p.other t.parked } := by
  simp only [TagEngine.dropContext, ite_ownedBy_none]

@[simp] theorem TagEngine.context_dropContext_self (t : TagEngine) (p : Port) : (t.dropContext p).context p = none := by
  simp [TagEngine.context_eq, TagEngine.dropContext_eq]

@[simp] theorem TagEngine.context_dropContext_other (t : TagEngine) (p : Port) :
    (t.dropContext p).context p.other = t.context p.other := by
  simp [TagEngine.context_eq, TagEngine.dropContext_eq]

/-! ### CHAIN_DROP (R156) -/

/-- CHAIN_DROP at a port that takes it runs in its block with the port waiting. -/
theorem exec_chainDrop {s : State} {p : Port} (h : s.takes p) :
    exec (.chainDrop p []) s = .next (s.withPart ((s.waitingOn p .chainDrop).chainDrop p [])) := by
  rw [exec_of_command rfl, Part.frame_takes h (Nat.zero_le _) (by decide)]
  rfl

theorem Part.chainDrop_of_context {s : Part} {p : Port} {x : Context} (h : s.te.context p = some x) :
    s.chainDrop p [] = ({ s with te := s.te.dropContext p }).answer (waiterOf p) .chainDrop .ok [] := by
  simp [Part.chainDrop, h]

theorem Part.chainDrop_of_no_context {s : Part} {p : Port} (h : s.te.context p = none) :
    s.chainDrop p [] = s.refuse (waiterOf p) .chainDrop .chainNone := by
  simp [Part.chainDrop, h]

@[simp] theorem Part.waitingOn_te (s : Part) (p : Port) (c : Cmd) : (s.waitingOn p c).te = s.te := by simp [Part.waitingOn]

/-- A reply made by a port's waiting command is the same with the tag engine changed before it. -/
theorem Part.answer_waitingOn_te (s : Part) (te : TagEngine) (p : Port) (c d : Cmd) (r : Code) (l : List ReplyItem) :
    ({ s.waitingOn p c with te := te }).answer (waiterOf p) d r l = { s.answered p (replyWords r d l) with te := te } := by
  cases p <;> rfl

/-- Settles O24: a chain open in either place, or none. -/
theorem chainDropDiscardsTheContext : Obligations.ChainDropDiscardsTheContext := by
  intro s p h
  rw [exec_chainDrop h]
  refine ⟨fun x hx => ⟨?reply, s.te.context_dropContext_self p, s.te.context_dropContext_other p⟩, fun hx => ?refusal⟩
  case reply =>
    rw [Part.chainDrop_of_context (x := x) (by simpa using hx), Part.waitingOn_te, Part.answer_waitingOn_te]
    rfl
  case refusal =>
    rw [Part.chainDrop_of_no_context (by simpa using hx), Part.refuse_waitingOn]
    rfl

end Sys2Proof.Machine
end

section
/-! SUPPORT. A port's attention mask (R182): SET_MASK where a port takes it, what the mask selects from the event set, and the operations
of a port restart (R179), none of which writes it. -/

namespace Sys2Proof.Machine

/-! ### SET_MASK -/

theorem argMask_word {w : Word} (h : w.toNat < 2048) : argMask [w] = some w := if_pos h

/-- A body that is not one word without reserved bits holds no mask (R182). -/
theorem argMask_eq_none {body : List Word} (h : ∀ w : Word, body = [w] → 2048 ≤ w.toNat) : argMask body = none := by
  match body with
  | [] => rfl
  | [w] => exact if_neg (Nat.not_lt.mpr (h w rfl))
  | _ :: _ :: _ => rfl

/-- SET_MASK at a port that takes it runs in its block with the port waiting. -/
theorem exec_setMask {s : State} {p : Port} {body : List Word} (h : s.takes p) (hb : body.length ≤ maxBody) :
    exec (.setMask p body) s = .next (s.withPart ((s.waitingOn p .setMask).setMask p body)) := by
  rw [exec_of_command rfl, Part.frame_takes h hb (by decide)]
  rfl

theorem Part.setMask_of_mask {s : Part} {p : Port} {body : List Word} {m : Word} (h : argMask body = some m) :
    s.setMask p body = (s.setPort p { s.port p with mask := m }).answer (waiterOf p) .setMask .ok [.words [m]] := by
  simp [Part.setMask, h]

theorem Part.setMask_of_no_mask {s : Part} {p : Port} {body : List Word} (h : argMask body = none) :
    s.setMask p body = s.refuse (waiterOf p) .setMask .badArg := by
  simp [Part.setMask, h]

/-- A reply made by a port's waiting command after it set the mask. -/
theorem Part.answer_waitingOn_mask (s : Part) (p : Port) (c d : Cmd) (r : Code) (l : List ReplyItem) (m : Word) :
    ((s.waitingOn p c).setPort p { (s.waitingOn p c).port p with mask := m }).answer (waiterOf p) d r l =
      s.setPort p { (s.port p).answered (replyWords r d l) with mask := m } := by
  cases p <;> rfl

theorem exec_setMask_of_word {s : State} {p : Port} {w : Word} (h : s.takes p) (hw : w.toNat < 2048) :
    exec (.setMask p [w]) s = .next (s.withPart (s.setPort p { (s.port p).answered [0x0002, w] with mask := w })) := by
  rw [exec_setMask h (show [w].length ≤ maxBody by simp [maxBody]), Part.setMask_of_mask (argMask_word hw), Part.answer_waitingOn_mask]
  rfl

theorem exec_setMask_of_bad_body {s : State} {p : Port} {body : List Word} (h : s.takes p) (hb : body.length ≤ maxBody)
    (hw : ∀ w : Word, body = [w] → 2048 ≤ w.toNat) :
    exec (.setMask p body) s = .next (s.withPart (s.answered p [0x1002])) := by
  rw [exec_setMask h hb, Part.setMask_of_no_mask (argMask_eq_none hw), Part.refuse_waitingOn]
  rfl

/-! ### The mask selects (R182, R183) -/

theorem Part.attention_of_empty_mask {s : Part} {p : Port} (h : (s.port p).mask = 0) : s.attention p = false := by
  simp [Part.attention, h]

/-- The kinds present do not depend on the mask. -/
@[simp] theorem Part.kinds_setPort_mask (s : Part) (p q : Port) (m : Word) :
    (s.setPort p { s.port p with mask := m }).kinds q = s.kinds q := by
  cases p <;> cases q <;> rfl

theorem Part.attention_setPort_mask (s : Part) (p : Port) (m : Word) :
    (s.setPort p { s.port p with mask := m }).attention p = (s.kinds p &&& m != 0) := by
  simp [Part.attention]

/-- Every kind present is one that the port's event set can hold (R180). -/
theorem Part.kinds_and_heldKinds (s : Part) (p : Port) : s.kinds p &&& heldKinds p = s.kinds p := by
  unfold Part.kinds
  split
  · rw [BitVec.and_assoc, BitVec.and_self]
  · exact BitVec.zero_and

/-- Enables of kinds that the port's event set never holds select nothing. -/
theorem Part.kinds_and_of_covers {s : Part} {p : Port} {c : Word} (hc : heldKinds p &&& c = heldKinds p) (m : Word) :
    s.kinds p &&& (m &&& c) = s.kinds p &&& m :=
  calc s.kinds p &&& (m &&& c) = s.kinds p &&& (heldKinds p &&& c) &&& m := by
        rw [← BitVec.and_assoc, ← s.kinds_and_heldKinds p]; ac_rfl
    _ = s.kinds p &&& m := by rw [hc, s.kinds_and_heldKinds p]

/-- Of the items of STATUS_READ the mask's own alone depends on the mask. -/
theorem Part.statusItems_setPort_mask (s : Part) (p : Port) (m : Word) :
    (s.setPort p { s.port p with mask := m }).statusItems p =
      (s.statusItems p).take 9 ++ ReplyItem.words [m] :: (s.statusItems p).drop 10 := by
  cases p <;> rfl

/-! ### The mask as the ports leave STARTING (R107), and a port restart (R179) -/

theorem Part.leaveStarting_mask {s : Part} (h : s.mayLeave = true) (p : Port) : (s.leaveStarting.port p).mask = 0x07FF := by
  rw [Part.leaveStarting, if_pos h]
  cases p <;> rfl

theorem Part.with_te_port (s : Part) (t : TagEngine) (q : Port) : ({ s with te := t } : Part).port q = s.port q := by
  cases q <;> rfl

theorem Part.condemnChanges_port (s : Part) (p q : Port) : (s.condemnChanges p).port q = s.port q :=
  foldl_keeps (fun s : Part => s.port q) _ (fun s i => by simp) _ _

@[simp] theorem Part.condemn_port (s : Part) (p q : Port) : (s.condemn p).port q = s.port q := by
  rw [← Part.condemnChanges_port s p q]
  unfold Part.condemn
  generalize s.condemnChanges p = t
  cases q <;> rfl

/-- A chain aborted without an event leaves the ports (R158). -/
@[simp] theorem Part.abortChain_silent_port (s : Part) (p q : Port) : (s.abortChain p false).port q = s.port q := by
  unfold Part.abortChain
  split
  · rfl
  · exact s.with_te_port _ q
  · split
    · rfl
    · exact s.with_te_port _ q

@[simp] theorem Part.forgetReply_mask (s : Part) (p : Port) (r : Reply) : ((s.forgetReply p r).port p).mask = (s.port p).mask := by
  unfold Part.forgetReply
  cases r.maker <;> cases p <;> rfl

@[simp] theorem Part.deliverReply_mask (s : Part) (p : Port) (r : Reply) :
    ((s.deliverReply p r).port p).mask = (s.port p).mask := by
  unfold Part.deliverReply
  cases r.maker <;> cases p <;> rfl

@[simp] theorem Part.settle_mask (s : Part) (p : Port) (o : List Word) (n : Nat) (v : Bool) :
    ((s.settle p o n v).1.port p).mask = (s.port p).mask := by
  unfold Part.settle
  cases (s.port p).job with
  | idle => rfl
  | waiting c => rfl
  | ready r =>
    dsimp only
    split_ifs <;> simp

@[simp] theorem Part.restart_mask (s : Part) (p : Port) : ((s.restart p).port p).mask = (s.port p).mask := by
  unfold Part.restart
  dsimp only
  rw [Part.port_modPort, Part.abortChain_silent_port, Part.with_te_port]
  cases (s.port p).job with
  | idle => rfl
  | ready r => exact s.forgetReply_mask p r
  | waiting c => simp [PortState.clearFlags]

@[simp] theorem Part.restartTransfer_mask (s : Part) (p : Port) : ((s.restartTransfer p).port p).mask = (s.port p).mask := by
  unfold Part.restartTransfer
  split <;> simp

/-- Settles O16. That ENV_ABORT's enable has no effect on the metrology port (clause 4) is that FFBFh covers every kind its set can hold. -/
theorem setMaskSetsTheMask : Obligations.SetMaskSetsTheMask := by
  refine ⟨fun s p w => exec_setMask_of_word, fun s p body => exec_setMask_of_bad_body, fun s p => Part.attention_of_empty_mask,
    fun s m => ?envAbort, fun s p m => ⟨s.kinds_setPort_mask p p m, s.statusItems_setPort_mask p m⟩,
    fun s p h => ⟨s.leaveStarting, rfl, Part.leaveStarting_mask h p⟩,
    fun s p => ⟨s.restartTransfer p, rfl, s.restartTransfer_mask p⟩⟩
  case envAbort =>
    have hcovers : heldKinds .mp &&& 0xFFBF = heldKinds .mp := by decide
    have hl := s.attention_setPort_mask .mp m
    have hr := s.attention_setPort_mask .mp (m &&& 0xFFBF)
    rw [Part.kinds_and_of_covers hcovers] at hr
    exact hl.trans hr.symm

end Sys2Proof.Machine
end
